-- ==== Sys2Proof/Word.lean ====
section
/-! DEFINITION. The words of the serial frame synchronizer, each under the name its spec gives it. -/

namespace Sys2Proof

/-- A byte, an unsigned 8-bit value (00_scope.md R11). -/
abbrev Byte := BitVec 8

/-- The 16-bit two's-complement word of an i16 field (00_scope.md R11, R13); its value is `BitVec.toInt`. -/
abbrev I16 := BitVec 16

/-- The 12-bit accumulator of the checksum (40_frame_decoder.md R130). -/
abbrev Sum12 := BitVec 12

/-- A PORT_OP word, op in bits 9:8 and data in bits 7:0 (30_encoding.md R110). -/
abbrev PortWord := BitVec 10

/-- A CFG_CMD word, byte 0 in bits 31:24 (30_encoding.md R113). -/
abbrev CfgWord := BitVec 32

/-- The packed frame on out_frame, FRAME_BUS (30_encoding.md R104). -/
abbrev BusWord := BitVec 75

end Sys2Proof
end

