-- ==== Sys2Proof/Syntax.lean ====
section
/-! DEFINITION. The syntax: one constructor of Instr for each row of spec/opcode_table.json, the three input formats
those rows are written in, and the reasons a word is no instruction. -/

namespace Sys2Proof

/-- The instructions. The rows of format WIRE_FRAME carry the operands of the wire frame (30_encoding.md R91); its sync
byte and checksum are fixed by the others. The rows of format PORT_OP are the four atomic operations (10_state.md R46).
The rows of format CFG_CMD are the seven literals of 30_encoding.md R114, in its order. -/
inductive Instr where
  | frameAcc (x y z t : I16)
  | frameGyro (x y z t : I16)
  | frameAngle (x y z t : I16)
  | frameMag (x y z t : I16)
  | frameUnknown (id : Byte) (x y z t : I16)
  | step
  | push (b : Byte)
  | take
  | reset
  | cfgProtocolSelect
  | cfgEnableStreaming
  | cfgDisableAllChannels
  | cfgEnableAcceleration
  | cfgEnableGyroscope
  | cfgEnableAngle
  | cfgSetOutputRate
  deriving DecidableEq, Repr

/-- The seven configuration commands by name (30_encoding.md R114; the pairing of names and literals is log 20). -/
inductive CfgCmd where
  | protocolSelect
  | enableStreaming
  | disableAllChannels
  | enableAcceleration
  | enableGyroscope
  | enableAngle
  | setOutputRate
  deriving DecidableEq, Repr

/-- A word of one of the three input formats (30_encoding.md R90), before decoding. -/
inductive RawWord where
  /-- WIRE_FRAME: bytes in arrival order. -/
  | wire (bytes : List Byte)
  /-- PORT_OP. -/
  | port (w : PortWord)
  /-- CFG_CMD. -/
  | cfg (w : CfgWord)
  deriving DecidableEq, Repr

/-- The format of a row (30_encoding.md R90). -/
inductive Format where
  | wireFrame
  | portOp
  | cfgCmd
  deriving DecidableEq, Repr

/-- Why a word is no instruction. The block itself does not tell these apart (60_exceptions.md R245): a STEP drops a byte
whatever the reason. -/
inductive DecodeError where
  /-- Not 11 bytes (40_frame_decoder.md R136, first test). -/
  | wrongLength
  /-- Byte 0 is not the sync byte (R136, second test). -/
  | wrongSync
  /-- Byte 10 is not the checksum (R136, third test). -/
  | wrongChecksum
  /-- A configuration word that is none of the seven literals of 30_encoding.md R114. -/
  | unlistedCommand
  deriving DecidableEq, Repr

end Sys2Proof
end

