-- ==== Sys2Proof/Config.lean ====
section
/-! DEFINITION. What is fixed for a machine: the constants of the wire format, the capacity parameter, the open
parameters of the host software, and the one free value. -/

namespace Sys2Proof.Config

/-- FRAME_LEN (00_scope.md R9). -/
def frameLen : Nat := 11

/-- SYNC (00_scope.md R9, 30_encoding.md R92). -/
def sync : Byte := 0x55

/-- CSUM_SPAN (00_scope.md R9). -/
def csumSpan : Nat := 10

/-- BUF_CAP, "natural number at least 11, or unbounded" (00_scope.md R9, R10): `fifo spare` is the capacity
FRAME_LEN + spare, so that no capacity below 11 can be written down. The number is `Machine.bufCapLimit`. -/
inductive BufCap where
  | unbounded
  | fifo (spare : Nat)
  deriving DecidableEq, Repr

/-- BAUD_ACCEPT, the open criterion for accepting a baud candidate (45_boundary_software.md R217). -/
inductive BaudAccept where
  | nonEmptyRead
  | syncPresent
  deriving DecidableEq, Repr

/-- The open parameters of the host software (93_implementation_defined.md U6, U7, U11; log 25). -/
structure HostParams where
  /-- BAUD_ACCEPT. -/
  baudAccept : BaudAccept
  /-- PROBE_CMDS, the commands of the baud probe. -/
  probeCmds : List CfgCmd
  /-- How many bytes the probe's read asks for, about 32. -/
  probeReadLen : Nat
  /-- The read timeout the probe opens with, about 200 ms. -/
  probeTimeoutMs : Nat
  /-- How many bytes a read of the main loop and of the Device-Responding Check asks for. -/
  readLen : Nat
  /-- The short read timeout of a link opened at a given rate. -/
  readTimeoutMs : Nat
  deriving DecidableEq, Repr

/-- The wait after each handshake command, 100 ms (45_boundary_software.md R213, 70_reset_and_hazards.md R284). The model
fixes it at that value and does not take it as an argument, as 93_implementation_defined.md U11 would have it: the model's
choice (log 18). -/
def commandDelayMs : Nat := 100

/-- FREE VALUE: the bits on out_frame in a cycle in which out_valid = 0, "any value" (10_state.md R45, R48;
93_implementation_defined.md U1; log 8). The argument is the index of the cycle. -/
opaque idleOutFrame : Nat → BusWord

end Sys2Proof.Config
end

