-- ==== Sys2Proof/Decode.lean ====
section
/-! DEFINITION. The decoder and the encoder of the three input formats (30_encoding.md), with the byte helpers they use. -/

namespace Sys2Proof

/-- The byte at 0-based position `k` of a byte sequence (00_scope.md R12). The spec reads no position beyond the end
(20_memory.md R61), and neither does any caller. -/
def byteAt (w : List Byte) (k : Nat) : Byte := w.getD k 0

/-- The 12-bit sum of the bytes at offsets 0 to 9 (40_frame_decoder.md R130). -/
def sum12 (w : List Byte) : Sum12 :=
  (w.take Config.csumSpan).foldl (fun s b => s + b.setWidth 12) 0

/-- CHECKSUM: bits 7:0 of that sum (40_frame_decoder.md R130). -/
def checksum (w : List Byte) : Byte := (sum12 w).extractLsb' 0 8

/-- LE16, the little-endian assembly `{hi, lo}` (20_memory.md R64, 30_encoding.md R97, 40_frame_decoder.md R133). -/
def le16 (lo hi : Byte) : I16 := hi ++ lo

/-- `lo(v)`, bits 7:0 (40_frame_decoder.md R146). -/
def loByte (v : I16) : Byte := v.extractLsb' 0 8

/-- `hi(v)`, bits 15:8 (40_frame_decoder.md R146). -/
def hiByte (v : I16) : Byte := v.extractLsb' 8 8

/-- The row a type id selects; FRAME_UNKNOWN has the lowest priority (30_encoding.md R98). -/
def frameRow (id : Byte) (x y z t : I16) : Instr :=
  if id = 0x51 then .frameAcc x y z t
  else if id = 0x52 then .frameGyro x y z t
  else if id = 0x53 then .frameAngle x y z t
  else if id = 0x54 then .frameMag x y z t
  else .frameUnknown id x y z t

/-- The WIRE_FRAME rows: header match, then the checksum condition (30_encoding.md R91, R96, R98). -/
def decodeWire (w : List Byte) : Except DecodeError Instr :=
  if w.length ≠ Config.frameLen then .error .wrongLength
  else if byteAt w 0 ≠ Config.sync then .error .wrongSync
  else if checksum w ≠ byteAt w 10 then .error .wrongChecksum
  else .ok (frameRow (byteAt w 1) (le16 (byteAt w 2) (byteAt w 3)) (le16 (byteAt w 4) (byteAt w 5))
    (le16 (byteAt w 6) (byteAt w 7)) (le16 (byteAt w 8) (byteAt w 9)))

/-- The `op` field of a PORT_OP word, bits 9:8 (30_encoding.md R110). -/
def portOpField (w : PortWord) : BitVec 2 := w.extractLsb' 8 2

/-- The `data` field of a PORT_OP word, bits 7:0 (30_encoding.md R110). -/
def portDataField (w : PortWord) : Byte := w.extractLsb' 0 8

/-- The PORT_OP rows. All 1024 words decode, and STEP, TAKE and RESET ignore the data bits (30_encoding.md R111, R112). -/
def decodePort (w : PortWord) : Instr :=
  if portOpField w = 0 then .step
  else if portOpField w = 1 then .push (portDataField w)
  else if portOpField w = 2 then .take
  else .reset

/-- The packed literal of each command (30_encoding.md R114). -/
def cfgWord : CfgCmd → CfgWord
  | .protocolSelect => 0xFFAA0300
  | .enableStreaming => 0xFFAA2700
  | .disableAllChannels => 0xFFAA0200
  | .enableAcceleration => 0xFFAA0201
  | .enableGyroscope => 0xFFAA0204
  | .enableAngle => 0xFFAA0208
  | .setOutputRate => 0xFFAA0308

/-- The four bytes of a command in the order sent: byte 0 is bits 31:24 (30_encoding.md R113). -/
def cfgBytes (w : CfgWord) : List Byte :=
  [w.extractLsb' 24 8, w.extractLsb' 16 8, w.extractLsb' 8 8, w.extractLsb' 0 8]

/-- The CFG_CMD rows, the seven literals and no other word (30_encoding.md R114). -/
def decodeCfg (w : CfgWord) : Except DecodeError Instr :=
  if w = 0xFFAA0300 then .ok .cfgProtocolSelect
  else if w = 0xFFAA2700 then .ok .cfgEnableStreaming
  else if w = 0xFFAA0200 then .ok .cfgDisableAllChannels
  else if w = 0xFFAA0201 then .ok .cfgEnableAcceleration
  else if w = 0xFFAA0204 then .ok .cfgEnableGyroscope
  else if w = 0xFFAA0208 then .ok .cfgEnableAngle
  else if w = 0xFFAA0308 then .ok .cfgSetOutputRate
  else .error .unlistedCommand

/-- The decoder, total on the words of every format. -/
def decode : RawWord → Except DecodeError Instr
  | .wire bytes => decodeWire bytes
  | .port w => .ok (decodePort w)
  | .cfg w => decodeCfg w

/-- Offsets 0 to 9 of the wire frame with these fields (30_encoding.md R91). -/
def frameBody (id : Byte) (x y z t : I16) : List Byte :=
  [Config.sync, id, loByte x, hiByte x, loByte y, hiByte y, loByte z, hiByte z, loByte t, hiByte t]

/-- ENCODE: the body and its checksum (40_frame_decoder.md R146). -/
def encodeFrame (id : Byte) (x y z t : I16) : List Byte :=
  frameBody id x y z t ++ [checksum (frameBody id x y z t)]

/-- A PORT_OP word from its two fields (30_encoding.md R110). -/
def portWord (op : BitVec 2) (data : Byte) : PortWord := op ++ data

/-- The encoder: a wire frame by ENCODE, a port operation in its canonical word (30_encoding.md R111), a command as its
packed literal (R114). -/
def encode : Instr → RawWord
  | .frameAcc x y z t => .wire (encodeFrame 0x51 x y z t)
  | .frameGyro x y z t => .wire (encodeFrame 0x52 x y z t)
  | .frameAngle x y z t => .wire (encodeFrame 0x53 x y z t)
  | .frameMag x y z t => .wire (encodeFrame 0x54 x y z t)
  | .frameUnknown id x y z t => .wire (encodeFrame id x y z t)
  | .step => .port (portWord 0 0)
  | .push b => .port (portWord 1 b)
  | .take => .port (portWord 2 0)
  | .reset => .port (portWord 3 0)
  | .cfgProtocolSelect => .cfg (cfgWord .protocolSelect)
  | .cfgEnableStreaming => .cfg (cfgWord .enableStreaming)
  | .cfgDisableAllChannels => .cfg (cfgWord .disableAllChannels)
  | .cfgEnableAcceleration => .cfg (cfgWord .enableAcceleration)
  | .cfgEnableGyroscope => .cfg (cfgWord .enableGyroscope)
  | .cfgEnableAngle => .cfg (cfgWord .enableAngle)
  | .cfgSetOutputRate => .cfg (cfgWord .setOutputRate)

/-- The format of each row in spec/opcode_table.json. -/
def formatOf : Instr → Format
  | .frameAcc _ _ _ _ => .wireFrame
  | .frameGyro _ _ _ _ => .wireFrame
  | .frameAngle _ _ _ _ => .wireFrame
  | .frameMag _ _ _ _ => .wireFrame
  | .frameUnknown _ _ _ _ _ => .wireFrame
  | .step => .portOp
  | .push _ => .portOp
  | .take => .portOp
  | .reset => .portOp
  | .cfgProtocolSelect => .cfgCmd
  | .cfgEnableStreaming => .cfgCmd
  | .cfgDisableAllChannels => .cfgCmd
  | .cfgEnableAcceleration => .cfgCmd
  | .cfgEnableGyroscope => .cfgCmd
  | .cfgEnableAngle => .cfgCmd
  | .cfgSetOutputRate => .cfgCmd

/-- The low `n` bytes of a number, least significant first: the bytes of a table word in arrival order. -/
def bytesOfNat : Nat → Nat → List Byte
  | 0, _ => []
  | n + 1, w => BitVec.ofNat 8 w :: bytesOfNat n (w / 256)

/-- The 11 bytes of a wire frame of which a table word gives the low `nbits` bits and every other OPERAND bit is 0. A
word that gives all ten bytes before it leaves the checksum byte as it is; for a shorter one that byte, which is no
operand, is the checksum the other ten determine (30_encoding.md R95; log 5). -/
def tableWindow (nbits w : Nat) : List Byte :=
  let bytes := bytesOfNat Config.frameLen w
  if nbits ≤ 80 then bytes.take Config.csumSpan ++ [checksum bytes] else bytes

/-- The format of a table word and its raw word (log 5): 32 bits are a CFG_CMD; a word within 10 bits, given in two
bytes, is a PORT_OP, but for 0x0055, which the table also writes as the match of FRAME_UNKNOWN and of no other row;
everything else is the start of a wire frame, whose byte 0 the table puts in bits 7:0. -/
def tableRaw (nbits w : Nat) : RawWord :=
  if nbits = 32 then .cfg (BitVec.ofNat 32 w)
  else if 8 < nbits ∧ nbits ≤ 16 ∧ w < 1024 ∧ w ≠ 0x55 then .port (BitVec.ofNat 10 w)
  else .wire (tableWindow nbits w)

/-- The instruction the decoder reads from a word numbered as spec/opcode_table.json numbers it. -/
def decodeTableWord (nbits w : Nat) : Option Instr := (decode (tableRaw nbits w)).toOption

end Sys2Proof
end

