-- ==== Sys2Proof/Machine/State.lean ====
section
/-! DEFINITION. The state of the machine: the block's triple (BUF, OUT, OVF), its capacity parameter, and the environment
the operations write to. -/

namespace Sys2Proof.Machine

/-- FrameType, a closed sum (10_state.md R37). -/
inductive FrameType where
  | acceleration
  | gyroscope
  | angle
  | magnetic
  | unknown (rawId : Byte)
  deriving DecidableEq, Repr

/-- A Frame value (10_state.md R36). -/
structure Frame where
  kind : FrameType
  typeId : Byte
  x : I16
  y : I16
  z : I16
  /-- The field the source calls temperature. -/
  t : I16
  deriving DecidableEq, Repr

/-- The outcome of a STEP (00_scope.md R15, 41_stream_reassembler.md R164). -/
inductive StepResult where
  | idle
  | held
  | emit (g : Frame)
  | drop (b : Byte)
  deriving DecidableEq, Repr

/-- The input ports at one rising edge of clk (10_state.md R44). -/
structure Pins where
  rst : Bool
  inValid : Bool
  inData : Byte
  outReady : Bool
  deriving DecidableEq, Repr

/-- What an agent presents to the machine (20_memory.md R72; log 4). -/
inductive Request where
  /-- One atomic operation, as its PORT_OP word. -/
  | port (w : PortWord)
  /-- One rising edge of clk with these input ports (41_stream_reassembler.md R180). -/
  | edge (p : Pins)
  /-- One configuration command the host sends to the device (45_boundary_software.md R213). -/
  | cfg (w : CfgWord)
  deriving DecidableEq, Repr

/-- Why an `open` fails (45_boundary_software.md R210). -/
inductive OpenError where
  | notFound
  | ioError
  deriving DecidableEq, Repr

/-- What an `open` returns (45_boundary_software.md R210). -/
inductive OpenAnswer where
  | opened
  | failed (e : OpenError)
  deriving DecidableEq, Repr

/-- What a `read` meets: the timeout, bytes, or an I/O error (45_boundary_software.md R210, R211). `data []` is a timeout
too. -/
inductive ReadAnswer where
  | timeout
  | data (bytes : List Byte)
  | ioError
  deriving DecidableEq, Repr

/-- The duplex byte channel an `open` yields (45_boundary_software.md R210). -/
structure Channel where
  path : String
  baud : Nat
  timeoutMs : Nat
  deriving DecidableEq, Repr

/-- A call the host makes of the Transport, with what it returned (45_boundary_software.md R210), or a wait (R213). -/
inductive LinkCall where
  | openAt (path : String) (baud timeoutMs : Nat) (answer : OpenAnswer)
  | read (maxLen : Nat) (answer : ReadAnswer)
  | write (bytes : List Byte) (ok : Bool)
  | flush (ok : Bool)
  | delay (ms : Nat)
  deriving DecidableEq, Repr

/-- The error of the Transport that ends the process: an initial open, a write or a flush that failed
(45_boundary_software.md R211, R214), or a read of the main loop (R223; log 26). -/
inductive TransportError where
  | openFailed (e : OpenError)
  | writeFailed
  | flushFailed
  | readFailed
  deriving DecidableEq, Repr

/-- The host's side of the link to the device (log 9). -/
structure Link where
  /-- The calls made, oldest first. -/
  calls : List LinkCall
  /-- The Transport's answers to the coming write and flush calls, next first; a call with no answer listed succeeds. -/
  answers : List Bool
  /-- Its answers to the coming open calls, next first; a call with no answer listed succeeds. -/
  opens : List OpenAnswer
  /-- Its answers to the coming read calls, next first; a call with no answer listed times out. -/
  reads : List ReadAnswer
  /-- The channel that is open, if one is (log 27). -/
  channel : Option Channel
  /-- The error that ended the sequence, if one did. -/
  error : Option TransportError
  deriving DecidableEq, Repr

/-- The machine's state. The first three fields are the block's whole architectural state (10_state.md R32). -/
structure State where
  /-- BUF, front first (10_state.md R33). -/
  buf : List Byte
  /-- OUT (10_state.md R35). -/
  out : Option Frame
  /-- OVF (10_state.md R38). -/
  ovf : Bool
  /-- BUF_CAP, which no operation writes (10_state.md R40; log 1). -/
  cap : Config.BufCap
  /-- TAKEN, the consumer's log, oldest first (10_state.md R42, R46). -/
  taken : List Frame
  /-- What the latest STEP returned (41_stream_reassembler.md R164); the model's own field (log 6). -/
  lastStep : Option StepResult
  /-- What the latest TAKE returned (41_stream_reassembler.md R166, R167); the model's own field (log 6). -/
  lastTake : Option (Option Frame)
  /-- What has been presented and has not run yet, next first; the model's own field (log 4). -/
  pending : List Request
  /-- The host's side of the link; the model's own field (log 9). -/
  link : Link
  deriving DecidableEq, Repr

/-- Why the machine stops with a fault. No constructor: no operation faults (60_exceptions.md R240, R248; log 17). -/
inductive Fault where
  deriving DecidableEq, Repr

/-- Why a request has no meaning. -/
inductive Refusal where
  /-- Raised by exec for an instruction without a meaning; no arm raises it. Safe. -/
  | notModelled (mnemonic : String)
  /-- Raised by step for a configuration word that is none of the seven literals of 30_encoding.md R114, to which the spec
  gives no meaning (R113; log 11). Safe. -/
  | unlistedCommand (w : CfgWord)
  deriving DecidableEq, Repr

/-- A link on which nothing has been called. -/
def Link.fresh : Link := { calls := [], answers := [], opens := [], reads := [], channel := none, error := none }

/-- The reset state (10_state.md R47) of a block built with capacity `cap`, before anything is presented. -/
def State.resetWith (cap : Config.BufCap) : State :=
  { buf := [], out := none, ovf := false, cap := cap, taken := [], lastStep := none, lastTake := none, pending := [],
    link := Link.fresh }

/-- The machine right after reset, with the source's unbounded buffer (10_state.md R47; log 1). -/
def State.reset : State := State.resetWith .unbounded

end Sys2Proof.Machine
end

