-- ==== Sys2Proof/Machine/Flags.lean ====
section
/-! DEFINITION. The flags OUT_VALID and OVF's cause, the derived values BUF_LEN, SCAN_READY and FULL, the checksum
validator and the capacity. -/

namespace Sys2Proof.Machine

/-- BUF_CAP as a number, or none for UNBOUNDED (00_scope.md R9). -/
def bufCapLimit : Config.BufCap → Option Nat
  | .unbounded => none
  | .fifo spare => some (Config.frameLen + spare)

/-- The capacity of a given size; a size below 11 is refused (00_scope.md R10, 60_exceptions.md R249). -/
def bufCapOfNat (n : Nat) : Option Config.BufCap :=
  if n < Config.frameLen then none else some (.fifo (n - Config.frameLen))

/-- OUT_VALID (10_state.md R35). -/
def State.outValid (s : State) : Bool := s.out.isSome

/-- BUF_LEN (10_state.md R41). -/
def State.bufLen (s : State) : Nat := s.buf.length

/-- SCAN_READY (10_state.md R41). -/
def State.scanReady (s : State) : Bool := decide (Config.frameLen ≤ s.bufLen)

/-- FULL (10_state.md R41): BUF_CAP is finite and no byte fits. A length above BUF_CAP, which no run reaches (R34),
counts as full too (log 2). -/
def State.full (s : State) : Bool :=
  match bufCapLimit s.cap with
  | none => false
  | some n => decide (n ≤ s.bufLen)

/-- CHECKSUM_VALID (40_frame_decoder.md R132). -/
def checksumValid (w : List Byte) : Bool := checksum w == byteAt w 10

end Sys2Proof.Machine
end

