-- ==== Sys2Proof/Machine/Operands.lean ====
section
/-! DEFINITION. The operand forms: the fields of a window, the type-id map, DECODE, and the packed output frame. -/

namespace Sys2Proof.Machine

/-- `signed16`, the two's-complement reading of a u16 (00_scope.md R13). -/
def signed16 (u : Nat) : Int := if u < 32768 then (u : Int) else (u : Int) - 65536

/-- CLASSIFY (40_frame_decoder.md R134). -/
def classify (id : Byte) : FrameType :=
  if id = 0x51 then .acceleration
  else if id = 0x52 then .gyroscope
  else if id = 0x53 then .angle
  else if id = 0x54 then .magnetic
  else .unknown id

/-- The fields of an 11-byte window (40_frame_decoder.md R135). -/
def fieldX (w : List Byte) : I16 := le16 (byteAt w 2) (byteAt w 3)

/-- See `fieldX`. -/
def fieldY (w : List Byte) : I16 := le16 (byteAt w 4) (byteAt w 5)

/-- See `fieldX`. -/
def fieldZ (w : List Byte) : I16 := le16 (byteAt w 6) (byteAt w 7)

/-- See `fieldX`. -/
def fieldT (w : List Byte) : I16 := le16 (byteAt w 8) (byteAt w 9)

/-- DECODE (40_frame_decoder.md R136). -/
def decodeFrame (c : List Byte) : Option Frame :=
  if c.length ≠ Config.frameLen then none
  else if byteAt c 0 ≠ Config.sync then none
  else if checksum c ≠ byteAt c 10 then none
  else some { kind := classify (byteAt c 1), typeId := byteAt c 1,
              x := fieldX c, y := fieldY c, z := fieldZ c, t := fieldT c }

/-- The test STEP and EXTRACT make of a window: DECODE, tried only where the first byte is the sync byte
(41_stream_reassembler.md R163, R170). -/
def windowFrame (w : List Byte) : Option Frame :=
  if byteAt w 0 = Config.sync then decodeFrame w else none

/-- The Frame a WIRE_FRAME row stands for (40_frame_decoder.md R139 to R143). -/
def frameOf : Instr → Option Frame
  | .frameAcc x y z t => some { kind := .acceleration, typeId := 0x51, x := x, y := y, z := z, t := t }
  | .frameGyro x y z t => some { kind := .gyroscope, typeId := 0x52, x := x, y := y, z := z, t := t }
  | .frameAngle x y z t => some { kind := .angle, typeId := 0x53, x := x, y := y, z := z, t := t }
  | .frameMag x y z t => some { kind := .magnetic, typeId := 0x54, x := x, y := y, z := z, t := t }
  | .frameUnknown id x y z t => some { kind := .unknown id, typeId := id, x := x, y := y, z := z, t := t }
  | .step => none
  | .push _ => none
  | .take => none
  | .reset => none
  | .cfgProtocolSelect => none
  | .cfgEnableStreaming => none
  | .cfgDisableAllChannels => none
  | .cfgEnableAcceleration => none
  | .cfgEnableGyroscope => none
  | .cfgEnableAngle => none
  | .cfgSetOutputRate => none

/-- The kind codes (30_encoding.md R103). -/
def kindCode : FrameType → BitVec 3
  | .acceleration => 0
  | .gyroscope => 1
  | .angle => 2
  | .magnetic => 3
  | .unknown _ => 4

/-- PACK (30_encoding.md R104). -/
def pack (f : Frame) : BusWord := kindCode f.kind ++ f.typeId ++ f.t ++ f.z ++ f.y ++ f.x

/-- The variant of a kind code; codes 5, 6 and 7 are refused (30_encoding.md R103, R105). -/
def kindOfCode (code : BitVec 3) (id : Byte) : Option FrameType :=
  if code = 0 then some .acceleration
  else if code = 1 then some .gyroscope
  else if code = 2 then some .angle
  else if code = 3 then some .magnetic
  else if code = 4 then some (.unknown id)
  else none

/-- UNPACK (30_encoding.md R105, R106; log 19). -/
def unpack (v : BusWord) : Option Frame :=
  (kindOfCode (v.extractLsb' 72 3) (v.extractLsb' 64 8)).map fun k =>
    { kind := k, typeId := v.extractLsb' 64 8, x := v.extractLsb' 0 16, y := v.extractLsb' 16 16,
      z := v.extractLsb' 32 16, t := v.extractLsb' 48 16 }

/-- The kind of a Frame is the one its type id selects (10_state.md R37). -/
def Frame.coherent (f : Frame) : Bool := decide (f.kind = classify f.typeId)

end Sys2Proof.Machine
end

