-- ==== Sys2Proof/Machine/Ops.lean ====
section
/-! DEFINITION. The named operations over the state: the buffer, the output register, the consumer's log, the Transport,
and the four atomic operations they make up. There is no operation for taking an exception or returning from one: the
block has neither (60_exceptions.md R240, R246, R247). -/

namespace Sys2Proof.Machine

/-! The buffer, the output register and the logs. -/

/-- `BUF <- BUF ++ [b]` (00_scope.md R15). -/
def State.append (s : State) (b : Byte) : State := { s with buf := s.buf ++ [b] }

/-- `BUF <- drop(n, BUF)` (00_scope.md R15). -/
def State.dropFront (s : State) (n : Nat) : State := { s with buf := s.buf.drop n }

/-- `OUT <- Some(g)` (00_scope.md R15). -/
def State.load (s : State) (g : Frame) : State := { s with out := some g }

/-- `OUT <- None` (00_scope.md R15). -/
def State.clearOut (s : State) : State := { s with out := none }

/-- `OVF <- 1`. -/
def State.raiseOvf (s : State) : State := { s with ovf := true }

/-- `TAKEN <- TAKEN ++ [g]`. -/
def State.logTaken (s : State) (g : Frame) : State := { s with taken := s.taken ++ [g] }

/-- `result <- r` of a STEP. -/
def State.stepReturns (s : State) (r : StepResult) : State := { s with lastStep := some r }

/-- `return r` of a TAKE. -/
def State.takeReturns (s : State) (r : Option Frame) : State := { s with lastTake := some r }

/-- The host's side of the link becomes `l`. -/
def State.withLink (s : State) (l : Link) : State := { s with link := l }

/-- What is presented becomes `p`. -/
def State.withPending (s : State) (p : List Request) : State := { s with pending := p }

/-- The window `BUF[0..11)` (00_scope.md R18). -/
def State.window (s : State) : List Byte := s.buf.take Config.frameLen

/-! The atomic operations. -/

/-- PUSH (41_stream_reassembler.md R160, R161). -/
def pushByte (b : Byte) (s : State) : State := if s.full then s.raiseOvf else s.append b

/-- What a STEP does with a valid window: EMIT, or HELD while OUT is full (41_stream_reassembler.md R163). It is what
executing the frame at the front of BUF means (log 3). -/
def emitFrame (g : Frame) (s : State) : State :=
  match s.out with
  | none => ((s.load g).dropFront Config.frameLen).stepReturns (.emit g)
  | some _ => s.stepReturns .held

/-- What a STEP does with any other window: DROP (41_stream_reassembler.md R163). -/
def dropByte (s : State) : State := (s.dropFront 1).stepReturns (.drop (byteAt s.buf 0))

/-- STEP (41_stream_reassembler.md R163). -/
def scanStep (s : State) : State :=
  if s.bufLen < Config.frameLen then s.stepReturns .idle
  else match windowFrame s.window with
    | some g => emitFrame g s
    | none => dropByte s

/-- TAKE (41_stream_reassembler.md R166, R167). -/
def takeFrame (s : State) : State :=
  match s.out with
  | some g => ((s.logTaken g).clearOut).takeReturns (some g)
  | none => s.takeReturns none

/-- RESET (70_reset_and_hazards.md R271). The consumer's log and the host's side are the environment's, and stay. -/
def resetBlock (s : State) : State := { s with buf := [], out := none, ovf := false }

/-! The Transport (45_boundary_software.md R210). -/

/-- The Transport's answer to an open: the next one listed, or success (log 9). -/
def Link.openAnswer (l : Link) : OpenAnswer := l.opens.headD .opened

/-- `open(path, baud, timeout)`: the channel it yields becomes the open one; a failure leaves none (log 27). -/
def Link.openAt (l : Link) (path : String) (baud timeoutMs : Nat) : Link :=
  { l with
    calls := l.calls ++ [.openAt path baud timeoutMs l.openAnswer]
    opens := l.opens.tail
    channel := if l.openAnswer = .opened then some { path := path, baud := baud, timeoutMs := timeoutMs } else none }

/-- The channel is given up (log 27). -/
def Link.dropChannel (l : Link) : Link := { l with channel := none }

/-- What a read that asks for `maxLen` bytes returns: no more than that (log 25). -/
def ReadAnswer.upTo (maxLen : Nat) : ReadAnswer → ReadAnswer
  | .timeout => .timeout
  | .data bytes => .data (bytes.take maxLen)
  | .ioError => .ioError

/-- The bytes a read returns. -/
def ReadAnswer.bytes : ReadAnswer → List Byte
  | .timeout => []
  | .data bytes => bytes
  | .ioError => []

/-- The Transport's answer to a read: the next one listed, or a timeout (log 9). -/
def Link.readAnswer (l : Link) (maxLen : Nat) : ReadAnswer := (l.reads.headD .timeout).upTo maxLen

/-- `Channel.read(maxLen)` on the host's side. -/
def Link.read (l : Link) (maxLen : Nat) : Link :=
  { l with calls := l.calls ++ [.read maxLen (l.readAnswer maxLen)], reads := l.reads.tail }

/-- The error ends the sequence. -/
def Link.fail (l : Link) (e : TransportError) : Link := { l with error := some e }

/-- The Transport's answer to a write or a flush: the next one listed, or success (log 9). -/
def Link.answer (l : Link) : Bool := l.answers.headD true

/-- `Channel.write(bytes)`; a failure is recorded as the error that ends the sequence (R211, R214). -/
def Link.write (l : Link) (bytes : List Byte) : Link :=
  { l with
    calls := l.calls ++ [.write bytes l.answer]
    answers := l.answers.tail
    error := if l.answer then l.error else some .writeFailed }

/-- `Channel.flush()`, likewise. -/
def Link.flush (l : Link) : Link :=
  { l with
    calls := l.calls ++ [.flush l.answer]
    answers := l.answers.tail
    error := if l.answer then l.error else some .flushFailed }

/-- A wait of `ms` milliseconds. -/
def Link.delay (l : Link) (ms : Nat) : Link := { l with calls := l.calls ++ [.delay ms] }

/-- The sequence goes on while no call has failed (R214). -/
def Link.andThen (l : Link) (next : Link → Link) : Link :=
  match l.error with
  | none => next l
  | some _ => l

/-- One command of the handshake: write its four bytes, flush, wait 100 ms (R213); a failure aborts (R214), and after an
abort nothing more is sent. -/
def sendCfg (c : CfgCmd) (l : Link) : Link :=
  ((l.andThen fun l => l.write (cfgBytes (cfgWord c))).andThen Link.flush).andThen
    fun l => l.delay Config.commandDelayMs

/-! The fetch. -/

/-- The next request and the state in which it runs, if one is presented (log 4). -/
def State.fetch (s : State) : Option (Request × State) :=
  match s.pending with
  | [] => none
  | r :: rest => some (r, s.withPending rest)

end Sys2Proof.Machine
end

