-- ==== Sys2Proof/Machine/Clocked.lean ====
section
/-! DEFINITION. The clocked mapping (41_stream_reassembler.md R180) and the output ports (10_state.md R44, R45). -/

namespace Sys2Proof.Machine

/-- The TAKE of a cycle: only where out_valid and out_ready are both 1. -/
def edgeTake (p : Pins) (s : State) : State := if s.outValid && p.outReady then takeFrame s else s

/-- The PUSH of a cycle: only where in_valid is 1. -/
def edgePush (p : Pins) (s : State) : State := if p.inValid then pushByte p.inData s else s

/-- One rising edge of clk (41_stream_reassembler.md R180, 60_exceptions.md R244): RESET and nothing else, or TAKE, STEP
and PUSH, each on the result of the one before. -/
def clockEdge (p : Pins) (s : State) : State :=
  if p.rst then resetBlock s else edgePush p (scanStep (edgeTake p s))

/-- A run of rising edges, first edge first. -/
def clockRun (ps : List Pins) (s : State) : State := ps.foldl (fun s p => clockEdge p s) s

/-- The output ports of one cycle. -/
structure Ports where
  outValid : Bool
  outFrame : BusWord
  ovf : Bool
  deriving DecidableEq, Repr

/-- The outputs in the cycle of index `n` that starts in `s` (10_state.md R45). While out_valid = 0, out_frame is the free
value (log 8). -/
def ports (n : Nat) (s : State) : Ports :=
  { outValid := s.outValid
    outFrame := match s.out with
      | some f => pack f
      | none => Config.idleOutFrame n
    ovf := s.ovf }

end Sys2Proof.Machine
end

