-- ==== Sys2Proof/Machine/ConfigCommands.lean ====
section
/-! DEFINITION. The meanings of the CFG_CMD rows: the host writes the literal to the device, flushes and waits
(45_boundary_software.md R213, R214). They act on the host's side of the link only; the block never sees them
(30_encoding.md R113), and what the device does with them is not in the spec (log 9). -/

namespace Sys2Proof.Machine

/-- CFG_PROTOCOL_SELECT. -/
def execCfgProtocolSelect (s : State) : Host.Outcome State Fault Refusal :=
  .next (s.withLink (sendCfg .protocolSelect s.link))

/-- CFG_ENABLE_STREAMING. -/
def execCfgEnableStreaming (s : State) : Host.Outcome State Fault Refusal :=
  .next (s.withLink (sendCfg .enableStreaming s.link))

/-- CFG_DISABLE_ALL_CHANNELS. -/
def execCfgDisableAllChannels (s : State) : Host.Outcome State Fault Refusal :=
  .next (s.withLink (sendCfg .disableAllChannels s.link))

/-- CFG_ENABLE_ACCELERATION. -/
def execCfgEnableAcceleration (s : State) : Host.Outcome State Fault Refusal :=
  .next (s.withLink (sendCfg .enableAcceleration s.link))

/-- CFG_ENABLE_GYROSCOPE. -/
def execCfgEnableGyroscope (s : State) : Host.Outcome State Fault Refusal :=
  .next (s.withLink (sendCfg .enableGyroscope s.link))

/-- CFG_ENABLE_ANGLE. -/
def execCfgEnableAngle (s : State) : Host.Outcome State Fault Refusal :=
  .next (s.withLink (sendCfg .enableAngle s.link))

/-- CFG_SET_OUTPUT_RATE. -/
def execCfgSetOutputRate (s : State) : Host.Outcome State Fault Refusal :=
  .next (s.withLink (sendCfg .setOutputRate s.link))

end Sys2Proof.Machine
end

