-- ==== Sys2Proof/Machine/Frames.lean ====
section
/-! DEFINITION. The meanings of the WIRE_FRAME rows. The block fetches such an instruction at BUF[0..11) and executes it
in a STEP: the frame is emitted and its 11 bytes are removed, or the STEP is HELD (log 3). -/

namespace Sys2Proof.Machine

/-- FRAME_ACC (40_frame_decoder.md R139). -/
def execFrameAcc (x y z t : I16) (s : State) : Host.Outcome State Fault Refusal :=
  .next (emitFrame { kind := .acceleration, typeId := 0x51, x := x, y := y, z := z, t := t } s)

/-- FRAME_GYRO (40_frame_decoder.md R140). -/
def execFrameGyro (x y z t : I16) (s : State) : Host.Outcome State Fault Refusal :=
  .next (emitFrame { kind := .gyroscope, typeId := 0x52, x := x, y := y, z := z, t := t } s)

/-- FRAME_ANGLE (40_frame_decoder.md R141). -/
def execFrameAngle (x y z t : I16) (s : State) : Host.Outcome State Fault Refusal :=
  .next (emitFrame { kind := .angle, typeId := 0x53, x := x, y := y, z := z, t := t } s)

/-- FRAME_MAG (40_frame_decoder.md R142). -/
def execFrameMag (x y z t : I16) (s : State) : Host.Outcome State Fault Refusal :=
  .next (emitFrame { kind := .magnetic, typeId := 0x54, x := x, y := y, z := z, t := t } s)

/-- FRAME_UNKNOWN (40_frame_decoder.md R143). -/
def execFrameUnknown (id : Byte) (x y z t : I16) (s : State) : Host.Outcome State Fault Refusal :=
  .next (emitFrame { kind := .unknown id, typeId := id, x := x, y := y, z := z, t := t } s)

end Sys2Proof.Machine
end

