-- ==== Sys2Proof/Machine/PortOps.lean ====
section
/-! DEFINITION. The meanings of the PORT_OP rows, the four atomic operations (10_state.md R46). Each is total and has no
fault and no refusal (60_exceptions.md R240, R248). -/

namespace Sys2Proof.Machine

/-- STEP (41_stream_reassembler.md R163). -/
def execStep (s : State) : Host.Outcome State Fault Refusal := .next (scanStep s)

/-- PUSH (41_stream_reassembler.md R160, R161). -/
def execPush (b : Byte) (s : State) : Host.Outcome State Fault Refusal := .next (pushByte b s)

/-- TAKE (41_stream_reassembler.md R166, R167). -/
def execTake (s : State) : Host.Outcome State Fault Refusal := .next (takeFrame s)

/-- RESET (70_reset_and_hazards.md R271). -/
def execReset (s : State) : Host.Outcome State Fault Refusal := .next (resetBlock s)

end Sys2Proof.Machine
end

