-- ==== Sys2Proof/Machine/Dispatch.lean ====
section
/-! DEFINITION. The dispatch: one arm for each constructor of Instr. -/

namespace Sys2Proof.Machine

-- The meaning of an instruction: the rows of WIRE_FRAME in Frames.lean (40_frame_decoder.md R139 to R143), of PORT_OP in
-- PortOps.lean (10_state.md R46), of CFG_CMD in ConfigCommands.lean (45_boundary_software.md R213).
def exec (i : Instr) (s : State) : Host.Outcome State Fault Refusal :=
  match i with
  | .frameAcc x y z t => Sys2Proof.Machine.execFrameAcc x y z t s
  | .frameGyro x y z t => Sys2Proof.Machine.execFrameGyro x y z t s
  | .frameAngle x y z t => Sys2Proof.Machine.execFrameAngle x y z t s
  | .frameMag x y z t => Sys2Proof.Machine.execFrameMag x y z t s
  | .frameUnknown id x y z t => Sys2Proof.Machine.execFrameUnknown id x y z t s
  | .step => Sys2Proof.Machine.execStep s
  | .push b => Sys2Proof.Machine.execPush b s
  | .take => Sys2Proof.Machine.execTake s
  | .reset => Sys2Proof.Machine.execReset s
  | .cfgProtocolSelect => Sys2Proof.Machine.execCfgProtocolSelect s
  | .cfgEnableStreaming => Sys2Proof.Machine.execCfgEnableStreaming s
  | .cfgDisableAllChannels => Sys2Proof.Machine.execCfgDisableAllChannels s
  | .cfgEnableAcceleration => Sys2Proof.Machine.execCfgEnableAcceleration s
  | .cfgEnableGyroscope => Sys2Proof.Machine.execCfgEnableGyroscope s
  | .cfgEnableAngle => Sys2Proof.Machine.execCfgEnableAngle s
  | .cfgSetOutputRate => Sys2Proof.Machine.execCfgSetOutputRate s

end Sys2Proof.Machine
end

