-- ==== Sys2Proof/Machine/Step.lean ====
section
/-! DEFINITION. The step function: the next request presented is decoded and run (log 4). -/

namespace Sys2Proof.Machine

/-- One request in the state left by the fetch. -/
def perform (r : Request) (s : State) : Host.Outcome State Fault Refusal :=
  match r with
  | .port w => exec (decodePort w) s
  | .edge p => .next (clockEdge p s)
  | .cfg w =>
    match decodeCfg w with
    | .ok i => exec i s
    | .error _ => .refused (.unlistedCommand w)

/-- One step. With nothing presented the machine waits, unchanged (10_state.md R46). -/
def step (s : State) : Host.Outcome State Fault Refusal :=
  match s.fetch with
  | none => .next s
  | some (r, s') => perform r s'

/-- `s` with the instruction of a table word where the machine fetches it: a port operation or a command at the head of
what is presented; a wire frame in BUF[0..11), with a STEP at the head (log 4, log 5). -/
def State.withFetchWord (s : State) (nbits w : Nat) : State :=
  match tableRaw nbits w with
  | .port v => s.withPending (.port v :: s.pending)
  | .cfg v => s.withPending (.cfg v :: s.pending)
  | .wire bytes =>
    { s with buf := bytes ++ s.buf.drop Config.frameLen, pending := .port (portWord 0 0) :: s.pending }

end Sys2Proof.Machine
end

