-- ==== Sys2Proof/Machine/Reassembly.lean ====
section
/-! DEFINITION. The batch reference function EXTRACT (41_stream_reassembler.md R170), the pseudo-operations PUSHN, STEPN
and DRAIN (30_encoding.md R116), and what a list of requests pushes. -/

namespace Sys2Proof.Machine

/-- EXTRACT by its recursion, `fuel` bounding the number of windows looked at (log 23). -/
def extractFuel : Nat → List Byte → List Frame × List Byte
  | 0, bytes => ([], bytes)
  | fuel + 1, bytes =>
    if bytes.length < Config.frameLen then ([], bytes)
    else match windowFrame (bytes.take Config.frameLen) with
      | some g =>
        (g :: (extractFuel fuel (bytes.drop Config.frameLen)).1, (extractFuel fuel (bytes.drop Config.frameLen)).2)
      | none => extractFuel fuel (bytes.drop 1)

/-- EXTRACT: the frames found and the tail (41_stream_reassembler.md R170). Each window looked at costs at least one byte,
so the length is fuel enough. -/
def extract (bytes : List Byte) : List Frame × List Byte := extractFuel bytes.length bytes

/-- PUSHN: one PUSH for each byte, in order (30_encoding.md R116; 10_state.md R42 for a chunk). -/
def pushAll (bytes : List Byte) (s : State) : State := bytes.foldl (fun s b => pushByte b s) s

/-- STEPN (30_encoding.md R116). -/
def stepMany : Nat → State → State
  | 0, s => s
  | n + 1, s => stepMany n (scanStep s)

/-- The condition of DRAIN's loop: BUF_LEN >= 11 or OUT_VALID == 1 (30_encoding.md R116). -/
def State.drainable (s : State) : Bool := s.scanReady || s.outValid

/-- The body of DRAIN's loop (30_encoding.md R116). -/
def drainOnce (s : State) : State := if s.outValid then takeFrame s else scanStep s

/-- DRAIN with at most `fuel` operations (log 23). -/
def drainFuel : Nat → State → State
  | 0, s => s
  | fuel + 1, s => if s.drainable then drainFuel fuel (drainOnce s) else s

/-- DRAIN (30_encoding.md R116): one TAKE of the frame in OUT, then at most two operations for each byte. -/
def drain (s : State) : State := drainFuel (2 * s.bufLen + 1) s

/-- The bytes one request presents to PUSH: the data of a PUSH word; in_data of a cycle without reset in which in_valid = 1. -/
def Request.pushed : Request → List Byte
  | .port w => if portOpField w = 1 then [portDataField w] else []
  | .edge p => if p.inValid && !p.rst then [p.inData] else []
  | .cfg _ => []

/-- The request is a RESET: the word of op 11, or a cycle with rst = 1. -/
def Request.resets : Request → Bool
  | .port w => portOpField w == 3
  | .edge p => p.rst
  | .cfg _ => false

/-- All bytes a list of requests presents to PUSH, in order. -/
def pushedBytes (rs : List Request) : List Byte := rs.flatMap Request.pushed

end Sys2Proof.Machine
end

