-- ==== Sys2Proof/Machine/Scaler.lean ====
section
/-! DEFINITION. The Scaler, the optional presentation layer outside the block (45_boundary_software.md R219, R220), in
exact rational arithmetic (log 16), and the choice the `--scaled` flag makes (R221). -/

namespace Sys2Proof.Machine

/-- The units of the Scaler. -/
inductive PhysicalUnit where
  | g
  | degreesPerSecond
  | degrees
  deriving DecidableEq, Repr

/-- The full scale and unit of a FrameType, where the spec defines one (45_boundary_software.md R219, R220). -/
def fullScale : FrameType → Option (Rat × PhysicalUnit)
  | .acceleration => some (16, .g)
  | .gyroscope => some (2000, .degreesPerSecond)
  | .angle => some (180, .degrees)
  | .magnetic => none
  | .unknown _ => none

/-- `raw / 32768 * full_scale` (45_boundary_software.md R219). -/
def scaleAxis (scale : Rat) (raw : I16) : Rat := (raw.toInt : Rat) / 32768 * scale

/-- What the Scaler makes of a Frame: physical values of the three axes, or the Frame itself, unchanged, its raw counts,
its type and its raw id with it. -/
inductive Scaled where
  | physical (x y z : Rat) (unit : PhysicalUnit)
  | unchanged (f : Frame)
  deriving DecidableEq, Repr

/-- The Scaler: Magnetic frames are left as raw counts and Unknown frames are passed through (45_boundary_software.md R220). -/
def scaleFrame (f : Frame) : Scaled :=
  match fullScale f.kind with
  | some (scale, unit) => .physical (scaleAxis scale f.x) (scaleAxis scale f.y) (scaleAxis scale f.z) unit
  | none => .unchanged f

/-- The Scaler refuses the temperature of every frame type (45_boundary_software.md R220, 93_implementation_defined.md U4). -/
def scaleTemperature (_f : Frame) : Option Rat := none

/-- What the CLI shows of a Frame: a raw field dump, or the Scaler's output under `--scaled` (45_boundary_software.md R221). -/
inductive Shown where
  | dump (f : Frame)
  | scaled (v : Scaled)
  deriving DecidableEq, Repr

/-- See `Shown`. -/
def showFrame (scaledFlag : Bool) (f : Frame) : Shown := if scaledFlag then .scaled (scaleFrame f) else .dump f

end Sys2Proof.Machine
end

