-- ==== Sys2Proof/Machine/HostSoftware.lean ====
section
/-! DEFINITION. The host software at the block's boundary (45_boundary_software.md): Handshake Sequencer, Baud Detector,
Device-Responding Check, start-up, the polling loop and the process, as functions on the state, whose link holds what the
Transport will answer (log 9, log 24, log 25). -/

namespace Sys2Proof.Machine

/-- The literals in the order of 30_encoding.md R114. -/
def handshakeCommands : List CfgCmd :=
  [.protocolSelect, .enableStreaming, .disableAllChannels, .enableAcceleration, .enableGyroscope, .enableAngle,
    .setOutputRate]

/-- Commands sent one after the other; a failure ends the sequence (45_boundary_software.md R213, R214). -/
def sendAll (cs : List CfgCmd) (l : Link) : Link := cs.foldl (fun l c => sendCfg c l) l

/-- `run(transport)` (45_boundary_software.md R213). -/
def runHandshake (l : Link) : Link := sendAll handshakeCommands l

/-- The bytes one call puts on the wire: those of a write that succeeded. -/
def LinkCall.wireBytes : LinkCall → List Byte
  | .openAt _ _ _ _ => []
  | .read _ _ => []
  | .write bytes ok => if ok then bytes else []
  | .flush _ => []
  | .delay _ => []

/-- The byte stream on the wire (45_boundary_software.md R213). -/
def Link.wireBytes (l : Link) : List Byte := l.calls.flatMap LinkCall.wireBytes

/-- One read of the host: the call is made, and the bytes it returns are pushed into the block in order, one PUSH each
(45_boundary_software.md R210). The reads of the baud probe and of the Device-Responding Check do so too (log 24). -/
def receive (maxLen : Nat) (s : State) : ReadAnswer × State :=
  (s.link.readAnswer maxLen, pushAll (s.link.readAnswer maxLen).bytes (s.withLink (s.link.read maxLen)))

/-! The Baud Detector. -/

/-- The candidate rates; the entries between the first and the last, but for index 6, are the spec's general knowledge
(45_boundary_software.md R215; log 13). -/
def baudTable : List Nat := [2400, 4800, 9600, 19200, 38400, 57600, 115200, 230400, 460800, 921600]

/-- The acceptance test on the bytes of the probe's read (45_boundary_software.md R217). -/
def acceptsProbe : Config.BaudAccept → List Byte → Bool
  | .nonEmptyRead, bytes => !bytes.isEmpty
  | .syncPresent, bytes => bytes.contains Config.sync

/-- What the probe of one candidate comes to. -/
inductive ProbeResult where
  | accepted
  | rejected
  /-- A write or a flush of the probe failed (log 14). -/
  | failed (e : TransportError)
  deriving DecidableEq, Repr

/-- The probe's read and the acceptance test (45_boundary_software.md R216, R217). A read that fails with an I/O error
returns no byte, so the candidate is rejected: the spec does not say so, it is the model's choice (log 26). -/
def probeRead (p : Config.HostParams) (s : State) : ProbeResult × State :=
  (if acceptsProbe p.baudAccept (s.link.readAnswer p.probeReadLen).bytes then .accepted else .rejected,
    (receive p.probeReadLen s).2)

/-- The probe of one candidate: open at its rate, send the probe commands, read (45_boundary_software.md R216). -/
def probe (p : Config.HostParams) (path : String) (baud : Nat) (s : State) : ProbeResult × State :=
  let opened := s.link.openAt path baud p.probeTimeoutMs
  match s.link.openAnswer with
  | .failed _ => (.rejected, s.withLink opened)
  | .opened =>
    match (sendAll p.probeCmds opened).error with
    | some e => (.failed e, s.withLink (sendAll p.probeCmds opened))
    | none => probeRead p (s.withLink (sendAll p.probeCmds opened))

/-- The result of the Baud Detector; the open transport is the channel of the state it returns beside this. -/
inductive DetectResult where
  | found (baud : Nat)
  /-- BaudDetectionExhausted (45_boundary_software.md R216). -/
  | exhausted
  /-- A write or flush of the probe failed (log 14). -/
  | transport (e : TransportError)
  deriving DecidableEq, Repr

/-- A rejected candidate's channel is given up (log 27). -/
def State.dropChannel (s : State) : State := s.withLink s.link.dropChannel

/-- `detect(path)` over candidates, in order (45_boundary_software.md R216). -/
def detectFrom (p : Config.HostParams) (path : String) : List Nat → State → DetectResult × State
  | [], s => (.exhausted, s)
  | baud :: rest, s =>
    match probe p path baud s with
    | (.accepted, t) => (.found baud, t)
    | (.rejected, t) => detectFrom p path rest t.dropChannel
    | (.failed e, t) => (.transport e, t)

/-- `detect(path)` over the fixed table (45_boundary_software.md R215, R216). -/
def detectBaud (p : Config.HostParams) (path : String) (s : State) : DetectResult × State :=
  detectFrom p path baudTable s

/-! The Device-Responding Check. -/

/-- The Device-Responding Check with `attempts` reads left (45_boundary_software.md R218). -/
def verifyFrom (maxLen : Nat) : Nat → State → Bool × State
  | 0, s => (false, s)
  | n + 1, s =>
    match receive maxLen s with
    | (.ioError, t) => (false, t)
    | (.timeout, t) => verifyFrom maxLen n t
    | (.data bytes, t) => if bytes.contains Config.sync then (true, t) else verifyFrom maxLen n t

/-- `verify(transport)`: up to 3 reads (45_boundary_software.md R218). -/
def verifyDevice (maxLen : Nat) (s : State) : Bool × State := verifyFrom maxLen 3 s

/-! Start-up. -/

/-- What the command line gives the process: the path, the rate if one is fixed or provided, and the `--scaled` flag
(45_boundary_software.md R221), with the device list the path is looked up in (R211). -/
structure CommandLine where
  devices : List String
  path : String
  baud : Option Nat
  scaled : Bool
  deriving DecidableEq, Repr

/-- Why the process ends at start-up (45_boundary_software.md R211, R216, R223). -/
inductive SetupError where
  | deviceNotFound
  | baudDetectionExhausted
  | transport (e : TransportError)
  deriving DecidableEq, Repr

/-- What start-up comes to: a link at a rate, or the error that ends the process. -/
inductive SetupResult where
  | ready (baud : Nat)
  | failed (e : SetupError)
  deriving DecidableEq, Repr

/-- The initial open at a given rate, whose failure is fatal (45_boundary_software.md R211, R221). -/
def openFixed (p : Config.HostParams) (path : String) (baud : Nat) (s : State) : SetupResult × State :=
  let opened := s.link.openAt path baud p.readTimeoutMs
  match s.link.openAnswer with
  | .opened => (.ready baud, s.withLink opened)
  | .failed e => (.failed (.transport (.openFailed e)), s.withLink (opened.fail (.openFailed e)))

/-- The serial link at the device's rate: the given one, or the one detected (70_reset_and_hazards.md R274, step 1). -/
def establish (p : Config.HostParams) (c : CommandLine) (s : State) : SetupResult × State :=
  match c.baud with
  | some baud => openFixed p c.path baud s
  | none =>
    match detectBaud p c.path s with
    | (.found baud, t) => (.ready baud, t)
    | (.exhausted, t) => (.failed .baudDetectionExhausted, t)
    | (.transport e, t) => (.failed (.transport e), t)

/-- The handshake on the open link (70_reset_and_hazards.md R274, step 2; 45_boundary_software.md R213, R214). -/
def configure (baud : Nat) (s : State) : SetupResult × State :=
  match (runHandshake s.link).error with
  | some e => (.failed (.transport e), s.withLink (runHandshake s.link))
  | none => (.ready baud, s.withLink (runHandshake s.link))

/-- Start-up in the order of 70_reset_and_hazards.md R274; the device must be listed before any I/O
(45_boundary_software.md R211). What a probe reads before the handshake has been pushed and waits in BUF; the block is not
reset and the device is not checked here: the model's choices (log 24). -/
def startUp (p : Config.HostParams) (c : CommandLine) (s : State) : SetupResult × State :=
  if c.path ∉ c.devices then (.failed .deviceNotFound, s)
  else match establish p c s with
    | (.ready baud, t) => configure baud t
    | (.failed e, t) => (.failed e, t)

/-! The main loop and the process. -/

/-- What one iteration of the polling loop returns: "emitted frames, updated state, should-continue"
(45_boundary_software.md R222), and whether its read is reported as "no data" (R211). -/
structure Poll where
  frames : List Frame
  noData : Bool
  state : State
  goOn : Bool
  deriving DecidableEq, Repr

/-- One iteration: a read, PUSH of each of its bytes, then DRAIN; a read of no bytes is "no data" and no error
(45_boundary_software.md R211, R222). A read that fails ends the process (R223; log 26). -/
def pollOnce (p : Config.HostParams) (stop : Bool) (s : State) : Poll :=
  match receive p.readLen s with
  | (.ioError, t) => { frames := [], noData := false, state := t.withLink (t.link.fail .readFailed), goOn := false }
  | (a, t) =>
    { frames := (drain t).taken.drop s.taken.length
      noData := a.bytes.isEmpty
      state := drain t
      goOn := !stop }

/-- How the process stands: it loops on, an external stop ended it, or an error did (45_boundary_software.md R221, R223). -/
inductive ProcessEnd where
  | running
  | stopped
  | setupFailed (e : SetupError)
  | transportFailed (e : TransportError)
  deriving DecidableEq, Repr

/-- The main loop over the stop signals its iterations see, one check each (45_boundary_software.md R221, R222):
everything shown, how the loop stands, and its state. -/
def pollLoop (p : Config.HostParams) (scaled : Bool) : List Bool → State → List Shown × ProcessEnd × State
  | [], s => ([], .running, s)
  | stop :: rest, s =>
    let now := pollOnce p stop s
    let shown := now.frames.map (showFrame scaled)
    if now.goOn then
      let later := pollLoop p scaled rest now.state
      (shown ++ later.1, later.2)
    else
      match now.state.link.error with
      | some e => (shown, .transportFailed e, now.state)
      | none => (shown, .stopped, now.state)

/-- The process: start-up, then the main loop (45_boundary_software.md R221, R223). -/
def runProcess (p : Config.HostParams) (c : CommandLine) (stops : List Bool) (s : State) :
    List Shown × ProcessEnd × State :=
  match startUp p c s with
  | (.ready _, t) => pollLoop p c.scaled stops t
  | (.failed e, t) => ([], .setupFailed e, t)

end Sys2Proof.Machine
end

