-- ==== Sys2Proof/Safety.lean ====
section
/-! DEFINITION. What counts as a safe run: the invariant of the machine, and a step that goes on. -/

namespace Sys2Proof.Safety

open Sys2Proof.Machine

/-- The buffer keeps within BUF_CAP (10_state.md R34). -/
def withinCap (s : State) : Bool :=
  match bufCapLimit s.cap with
  | none => true
  | some n => decide (s.bufLen ≤ n)

/-- With BUF_CAP = UNBOUNDED, OVF stays 0 (10_state.md R38). -/
def ovfNeedsCap (s : State) : Bool :=
  match bufCapLimit s.cap with
  | none => !s.ovf
  | some _ => true

/-- Every Frame in OUT and in TAKEN has the kind its type id selects (10_state.md R37, 30_encoding.md R106). -/
def framesCoherent (s : State) : Bool := s.out.all Frame.coherent && s.taken.all Frame.coherent

/-- The invariant of the machine, which every step keeps. -/
structure BlockInv (s : State) : Prop where
  withinCap : withinCap s = true
  ovfNeedsCap : ovfNeedsCap s = true
  framesCoherent : framesCoherent s = true

/-- The step of `s` goes on to `t`. -/
abbrev StepsTo (s t : State) : Prop := step s = .next t

/-- `n` steps of the machine from `s` go on to `t`. -/
abbrev RunsTo (n : Nat) (s t : State) : Prop := Host.Core.run Sys2Proof.core n s = .next t

/-- `s` with these requests presented and nothing else pending. -/
def presenting (rs : List Request) (s : State) : State := s.withPending rs

end Sys2Proof.Safety
end

