-- ==== Sys2Proof/WellFormed.lean ====
section
/-! DEFINITION. Which terms of Instr are instructions of the table. -/

namespace Sys2Proof

/-- FRAME_UNKNOWN stands only for the type ids that the four rows above it do not take (30_encoding.md R98,
40_frame_decoder.md R143). Every other term is an instruction: all operand values are legal (30_encoding.md R93, R99, R112). -/
def wellFormed : Instr → Bool
  | .frameAcc _ _ _ _ => true
  | .frameGyro _ _ _ _ => true
  | .frameAngle _ _ _ _ => true
  | .frameMag _ _ _ _ => true
  | .frameUnknown id _ _ _ _ => id != 0x51 && id != 0x52 && id != 0x53 && id != 0x54
  | .step => true
  | .push _ => true
  | .take => true
  | .reset => true
  | .cfgProtocolSelect => true
  | .cfgEnableStreaming => true
  | .cfgDisableAllChannels => true
  | .cfgEnableAcceleration => true
  | .cfgEnableGyroscope => true
  | .cfgEnableAngle => true
  | .cfgSetOutputRate => true

/-- The instruction is one of the table's. -/
abbrev WellFormed (i : Instr) : Prop := wellFormed i = true

end Sys2Proof
end

