-- ==== Sys2Proof/Certificates/Slice0/Obligations.lean ====
section
/-! DEFINITION. The statements for the provers. The docstring of each names the rule of spec/ it formalises, or, where it
rests on a choice or an inference of the model, the log entry. -/

open Sys2Proof Sys2Proof.Machine Sys2Proof.Safety

/-! Encodings. -/

/-- Decoding the encoding of an instruction of the table gives it back, with every operand at every value
(30_encoding.md R91, R98, R111, R114; 40_frame_decoder.md R146). -/
def Obligations.EncodeThenDecodeGivesTheInstrBack : Prop :=
  ∀ i : Instr, WellFormed i → decode (encode i) = .ok i

/-- A wire word that decodes is the encoding of what it decodes to, so no bit of a wire frame is dropped
(30_encoding.md R91, R95, R98). -/
def Obligations.WireDecodingLosesNoBit : Prop :=
  ∀ (w : List Byte) (i : Instr), decodeWire w = .ok i → WellFormed i ∧ encode i = .wire w

/-- All 1024 port-operation words decode by their op field, whatever the data bits of STEP, TAKE and RESET, and the
canonical words are those of the table (30_encoding.md R111, R112). -/
def Obligations.PortWordsAllDecodeByTheirOpField : Prop :=
  (∀ w : PortWord, ∃ op data, w = portWord op data) ∧
  (∀ data : Byte, decodePort (portWord 0 data) = .step ∧ decodePort (portWord 1 data) = .push data ∧
    decodePort (portWord 2 data) = .take ∧ decodePort (portWord 3 data) = .reset) ∧
  (encode .step = .port 0x000 ∧ (∀ b : Byte, encode (.push b) = .port (BitVec.ofNat 10 (0x100 + b.toNat))) ∧
    encode .take = .port 0x200 ∧ encode .reset = .port 0x300)

/-- Each packed literal decodes to its command and is sent as its four bytes in order (30_encoding.md R114; the pairing of
literals and names is the spec's own, by position, log 20). -/
def Obligations.ConfigLiteralsDecodeAndSplit : Prop :=
  (decodeCfg 0xFFAA0300 = .ok .cfgProtocolSelect ∧ cfgBytes 0xFFAA0300 = [0xFF, 0xAA, 0x03, 0x00]) ∧
  (decodeCfg 0xFFAA2700 = .ok .cfgEnableStreaming ∧ cfgBytes 0xFFAA2700 = [0xFF, 0xAA, 0x27, 0x00]) ∧
  (decodeCfg 0xFFAA0200 = .ok .cfgDisableAllChannels ∧ cfgBytes 0xFFAA0200 = [0xFF, 0xAA, 0x02, 0x00]) ∧
  (decodeCfg 0xFFAA0201 = .ok .cfgEnableAcceleration ∧ cfgBytes 0xFFAA0201 = [0xFF, 0xAA, 0x02, 0x01]) ∧
  (decodeCfg 0xFFAA0204 = .ok .cfgEnableGyroscope ∧ cfgBytes 0xFFAA0204 = [0xFF, 0xAA, 0x02, 0x04]) ∧
  (decodeCfg 0xFFAA0208 = .ok .cfgEnableAngle ∧ cfgBytes 0xFFAA0208 = [0xFF, 0xAA, 0x02, 0x08]) ∧
  (decodeCfg 0xFFAA0308 = .ok .cfgSetOutputRate ∧ cfgBytes 0xFFAA0308 = [0xFF, 0xAA, 0x03, 0x08])

/-- A few words written out in the spec decode to the instructions they stand for (95_test_vectors.md, named frames FA1,
FG, FN, FM, FU55 and the PORT_OP table). -/
def Obligations.WordsWrittenOutDecode : Prop :=
  decodeWire [0x55, 0x51, 0xFF, 0x7F, 0x00, 0x80, 0xFF, 0xFF, 0x34, 0x12, 0xE8]
    = .ok (.frameAcc 0x7FFF 0x8000 0xFFFF 0x1234) ∧
  decodeWire [0x55, 0x52, 0x10, 0x00, 0xF0, 0xFF, 0x00, 0x01, 0x00, 0x00, 0xA7]
    = .ok (.frameGyro 0x0010 0xFFF0 0x0100 0x0000) ∧
  decodeWire [0x55, 0x53, 0x00, 0x40, 0x00, 0xC0, 0x01, 0x00, 0xFF, 0xFF, 0xA7]
    = .ok (.frameAngle 0x4000 0xC000 0x0001 0xFFFF) ∧
  decodeWire [0x55, 0x54, 0x2C, 0x01, 0xD4, 0xFE, 0x00, 0x00, 0x10, 0x0A, 0xC2]
    = .ok (.frameMag 0x012C 0xFED4 0x0000 0x0A10) ∧
  decodeWire [0x55, 0x55, 0x00, 0x00, 0x00, 0x00, 0x00, 0x00, 0x00, 0x00, 0xAA]
    = .ok (.frameUnknown 0x55 0 0 0 0) ∧
  decodePort 0x0FF = .step ∧ decodePort 0x155 = .push 0x55 ∧ decodePort 0x2A5 = .take ∧ decodePort 0x3FF = .reset

/-! The checksum validator and the frame decoder. -/

/-- CHECKSUM is the low byte of the sum of the bytes at offsets 0 to 9, and the 12-bit accumulator never overflows
(40_frame_decoder.md R130). -/
def Obligations.ChecksumIsTheLowByteOfTheByteSum : Prop :=
  ∀ w : List Byte, 10 ≤ w.length →
    (sum12 w).toNat = ((w.take 10).map BitVec.toNat).sum ∧ (sum12 w).toNat ≤ 2550 ∧
      (checksum w).toNat = ((w.take 10).map BitVec.toNat).sum % 256

/-- An 8-bit adder that discards carries gives the same checksum, in any order of the ten bytes and with either grouping
(40_frame_decoder.md R131). -/
def Obligations.WrappingAdderGivesTheChecksum : Prop :=
  ∀ w v : List Byte, (w.take 10).Perm v →
    v.foldl (fun s b => s + b) 0 = checksum w ∧ v.foldr (fun b s => b + s) 0 = checksum w

/-- LE16 is the two's-complement value of `hi * 256 + lo` (40_frame_decoder.md R133). The two's-complement reading is the
spec's general knowledge (93_implementation_defined.md G1; log 12). -/
def Obligations.Le16IsSignedLittleEndian : Prop :=
  ∀ lo hi : Byte, (le16 lo hi).toInt = signed16 (hi.toNat * 256 + lo.toNat)

/-- A byte sequence is a frame exactly when it has 11 bytes, starts with the sync byte and ends with its checksum
(30_encoding.md R96). -/
def Obligations.DecodeAcceptsExactlyTheValidFrames : Prop :=
  ∀ w : List Byte, (decodeFrame w).isSome = true ↔
    w.length = 11 ∧ byteAt w 0 = 0x55 ∧ byteAt w 10 = checksum w

/-- DECODE of a valid window, one clause for each frame type, and the frame is emitted by a STEP that finds it at the front
with OUT empty, an Unknown one too (40_frame_decoder.md R139 to R143). -/
def Obligations.FrameTypesDecodeByTheirTypeId : Prop :=
  ∀ w : List Byte, w.length = 11 → byteAt w 0 = 0x55 → byteAt w 10 = checksum w →
    let frame := fun k => Frame.mk k (byteAt w 1) (le16 (byteAt w 2) (byteAt w 3)) (le16 (byteAt w 4) (byteAt w 5))
      (le16 (byteAt w 6) (byteAt w 7)) (le16 (byteAt w 8) (byteAt w 9))
    (byteAt w 1 = 0x51 → decodeFrame w = some (frame .acceleration)) ∧
    (byteAt w 1 = 0x52 → decodeFrame w = some (frame .gyroscope)) ∧
    (byteAt w 1 = 0x53 → decodeFrame w = some (frame .angle)) ∧
    (byteAt w 1 = 0x54 → decodeFrame w = some (frame .magnetic)) ∧
    (byteAt w 1 ∉ [(0x51 : Byte), 0x52, 0x53, 0x54] → decodeFrame w = some (frame (.unknown (byteAt w 1)))) ∧
    (∀ s : State, s.buf.take 11 = w → s.out = none → ∃ t f, exec .step s = .next t ∧ decodeFrame w = some f ∧
      t.out = some f ∧ t.lastStep = some (.emit f))

/-- CLASSIFY is the type-id map, total on all 256 ids (40_frame_decoder.md R134). -/
def Obligations.ClassifyIsTheTypeIdMap : Prop :=
  classify 0x51 = .acceleration ∧ classify 0x52 = .gyroscope ∧ classify 0x53 = .angle ∧ classify 0x54 = .magnetic ∧
    ∀ id : Byte, id ∉ [(0x51 : Byte), 0x52, 0x53, 0x54] → classify id = .unknown id

/-- ENCODE lays its eleven bytes out as the rule says, and DECODE gives back its arguments (40_frame_decoder.md R146,
which the spec derives). -/
def Obligations.DecodeOfEncodeGivesTheFields : Prop :=
  ∀ (id : Byte) (x y z t : I16),
    (∃ c, encodeFrame id x y z t = [0x55, id, loByte x, hiByte x, loByte y, hiByte y, loByte z, hiByte z, loByte t,
      hiByte t, c] ∧ c = checksum (encodeFrame id x y z t)) ∧
    decodeFrame (encodeFrame id x y z t) = some ⟨classify id, id, x, y, z, t⟩

/-- Every single-bit error in a valid frame makes DECODE reject it (40_frame_decoder.md R144, which the spec derives). -/
def Obligations.SingleBitErrorsAreRejected : Prop :=
  ∀ (w : List Byte) (g : Frame), decodeFrame w = some g → ∀ k < 11, ∀ j < 8,
    decodeFrame (w.set k (byteAt w k ^^^ (1#8 <<< j))) = none

/-- Errors in offsets 1 to 9 that keep their sum modulo 256, reorderings among them, are accepted
(40_frame_decoder.md R145, which the spec derives). -/
def Obligations.CompensatingErrorsAreAccepted : Prop :=
  ∀ (w v : List Byte) (g : Frame), decodeFrame w = some g → v.length = 11 → byteAt v 0 = 0x55 →
    byteAt v 10 = byteAt w 10 →
    (((v.drop 1).take 9).map BitVec.toNat).sum % 256 = (((w.drop 1).take 9).map BitVec.toNat).sum % 256 ∨
      ((v.drop 1).take 9).Perm ((w.drop 1).take 9) →
    ∃ f, decodeFrame v = some f

/-- The Instr decoder and DECODE agree on every byte sequence: one refuses exactly what the other does, and the frame is the
one the row stands for (30_encoding.md R98, 40_frame_decoder.md R136, R139 to R143; log 3). -/
def Obligations.WireRowsStandForTheDecodedFrame : Prop :=
  ∀ w : List Byte, decodeFrame w = (decodeWire w).toOption.bind frameOf

/-! The output frame bus. -/

/-- PACK puts each field where the table says (30_encoding.md R104), under the kind codes of R103, of which 5 to 7 are never
produced. -/
def Obligations.PackPutsTheFieldsInTheirBits : Prop :=
  ∀ f : Frame,
    (pack f).extractLsb' 72 3 = kindCode f.kind ∧ (pack f).extractLsb' 64 8 = f.typeId ∧
    (pack f).extractLsb' 48 16 = f.t ∧ (pack f).extractLsb' 32 16 = f.z ∧
    (pack f).extractLsb' 16 16 = f.y ∧ (pack f).extractLsb' 0 16 = f.x ∧
    ((f.kind = .acceleration → kindCode f.kind = 0) ∧ (f.kind = .gyroscope → kindCode f.kind = 1) ∧
      (f.kind = .angle → kindCode f.kind = 2) ∧ (f.kind = .magnetic → kindCode f.kind = 3) ∧
      (∀ id, f.kind = .unknown id → kindCode f.kind = 4)) ∧
    kindCode f.kind ∉ [(5 : BitVec 3), 6, 7]

/-- UNPACK gives back every Frame that DECODE can produce, and its kind bits are determined by its type-id bits
(30_encoding.md R106, which the spec derives). -/
def Obligations.UnpackInvertsPack : Prop :=
  ∀ (w : List Byte) (f : Frame), decodeFrame w = some f → unpack (pack f) = some f ∧
    (pack f).extractLsb' 72 3 = kindCode (classify ((pack f).extractLsb' 64 8))

/-- UNPACK refuses kind codes 5, 6 and 7, which PACK never produces (30_encoding.md R105). That it refuses only these is the
model's choice: it does not compare the kind with the type id, which R106 leaves to the receiver (log 19). -/
def Obligations.UnpackRefusesTheReservedKinds : Prop :=
  (∀ v : BusWord, unpack v = none ↔ v.extractLsb' 72 3 ∈ [(5 : BitVec 3), 6, 7]) ∧
    ∀ f : Frame, (pack f).extractLsb' 72 3 ∉ [(5 : BitVec 3), 6, 7]

/-- The output ports read the state at the start of the cycle (10_state.md R45); nothing is said of out_frame while
out_valid = 0. -/
def Obligations.PortsReadTheState : Prop :=
  ∀ (n : Nat) (s : State), (ports n s).outValid = s.out.isSome ∧ (ports n s).ovf = s.ovf ∧
    ∀ f, s.out = some f → (ports n s).outFrame = pack f

/-! The four atomic operations. -/

/-- PUSH of op 01 appends its byte, whatever its value, where BUF_CAP leaves room, and otherwise only sets OVF; in a cycle it
is the last thing that happens, and a chunk is one PUSH for each of its bytes, in order (41_stream_reassembler.md R160, R161). -/
def Obligations.PushAppendsOrSetsOvf : Prop :=
  ∀ (b : Byte) (s : State),
    decodePort (portWord 1 b) = .push b ∧
    (bufCapLimit s.cap = none → exec (.push b) s = .next { s with buf := s.buf ++ [b] }) ∧
    (∀ n, bufCapLimit s.cap = some n → s.buf.length < n → exec (.push b) s = .next { s with buf := s.buf ++ [b] }) ∧
    (∀ n, bufCapLimit s.cap = some n → s.buf.length = n → exec (.push b) s = .next { s with ovf := true }) ∧
    (∀ ready, exec (.push b) (clockEdge ⟨false, false, b, ready⟩ s) = .next (clockEdge ⟨false, true, b, ready⟩ s)) ∧
    (∀ chunk t, exec (.push b) s = .next t → pushAll (b :: chunk) s = pushAll chunk t ∧ pushAll [] s = s)

/-- STEP of op 00 follows its four cases, and one STEP runs in every cycle (41_stream_reassembler.md R163). -/
def Obligations.StepFollowsItsFourCases : Prop :=
  ∀ s : State,
    (∀ data, decodePort (portWord 0 data) = .step) ∧
    (s.buf.length < 11 → exec .step s = .next { s with lastStep := some .idle }) ∧
    (∀ g, 11 ≤ s.buf.length → decodeFrame (s.buf.take 11) = some g → s.out = none →
      exec .step s = .next { s with out := some g, buf := s.buf.drop 11, lastStep := some (.emit g) }) ∧
    (∀ g f, 11 ≤ s.buf.length → decodeFrame (s.buf.take 11) = some g → s.out = some f →
      exec .step s = .next { s with lastStep := some .held }) ∧
    (∀ b rest, s.buf = b :: rest → 11 ≤ s.buf.length → decodeFrame (s.buf.take 11) = none →
      exec .step s = .next { s with buf := rest, lastStep := some (.drop b) }) ∧
    (∀ d, exec .step s = .next (clockEdge ⟨false, false, d, false⟩ s))

/-- Each outcome of STEP has exactly its own condition, so the four exclude each other, and they cover every state
(41_stream_reassembler.md R164, which the spec derives). -/
def Obligations.StepReturnsExactlyOneOutcome : Prop :=
  ∀ s t : State, exec .step s = .next t →
    (t.lastStep = some .idle ↔ s.buf.length < 11) ∧
    (t.lastStep = some .held ↔ (∃ g, decodeFrame (s.buf.take 11) = some g) ∧ s.out.isSome = true) ∧
    (∀ g, t.lastStep = some (.emit g) ↔ decodeFrame (s.buf.take 11) = some g ∧ s.out = none) ∧
    ((∃ b, t.lastStep = some (.drop b)) ↔ 11 ≤ s.buf.length ∧ decodeFrame (s.buf.take 11) = none)

/-- TAKE of op 10 returns the frame in OUT, logs it and empties OUT; with OUT empty it returns nothing and changes nothing
but that return value (log 6); in a cycle it runs first, where both sides are ready; a STEP that was HELD can then emit
(41_stream_reassembler.md R166, R167). -/
def Obligations.TakeMovesTheFrameToTheConsumer : Prop :=
  ∀ s : State,
    (∀ data, decodePort (portWord 2 data) = .take) ∧
    (∀ g, s.out = some g →
      exec .take s = .next { s with out := none, taken := s.taken ++ [g], lastTake := some (some g) }) ∧
    (s.out = none → exec .take s = .next { s with lastTake := some none }) ∧
    (∀ v d, s.out.isSome = true →
      ∀ t, exec .take s = .next t → clockEdge ⟨false, v, d, true⟩ s = clockEdge ⟨false, v, d, false⟩ t) ∧
    (∀ v d, s.out = none → clockEdge ⟨false, v, d, true⟩ s = clockEdge ⟨false, v, d, false⟩ s) ∧
    (∀ g f t, decodeFrame (s.buf.take 11) = some g → s.out = some f → exec .take s = .next t →
      ∃ u, exec .step t = .next u ∧ u.lastStep = some (.emit g))

/-- RESET of op 11 empties BUF and OUT and clears OVF, and leaves the consumer's log, the capacity and the rest of the
environment; in the reset state it changes nothing; a cycle with rst = 1 does the same (70_reset_and_hazards.md R271). -/
def Obligations.ResetEmptiesTheBlock : Prop :=
  ∀ s : State,
    (∀ data, decodePort (portWord 3 data) = .reset) ∧
    exec .reset s = .next { s with buf := [], out := none, ovf := false } ∧
    (s.buf = [] → s.out = none → s.ovf = false → exec .reset s = .next s) ∧
    (∀ v d ready, exec .reset s = .next (clockEdge ⟨true, v, d, ready⟩ s))

/-- A cycle with rst = 1 performs RESET and nothing else from every state, the undefined one at power-on included: the other
inputs are ignored and a byte presented is lost (70_reset_and_hazards.md R270). -/
def Obligations.RstCycleIsResetFromEveryState : Prop :=
  ∀ (p : Pins) (s : State), p.rst = true →
    clockEdge p s = { s with buf := [], out := none, ovf := false } ∧
      ∀ q : Pins, q.rst = true → clockEdge q s = clockEdge p s

/-! The rows of the wire format. -/

/-- Executing the frame at the front of BUF with OUT empty emits it: the Frame of its row goes to OUT and its 11 bytes leave
BUF (40_frame_decoder.md R139 to R143 with 41_stream_reassembler.md R163; that a row is executed by the STEP that finds it is
the model's reading, log 3). -/
def Obligations.FrameRowsEmitWhenOutIsEmpty : Prop :=
  ∀ (x y z t : I16) (s : State), s.out = none →
    let emitted := fun f : Frame => { s with out := some f, buf := s.buf.drop 11, lastStep := some (.emit f) }
    exec (.frameAcc x y z t) s = .next (emitted ⟨.acceleration, 0x51, x, y, z, t⟩) ∧
    exec (.frameGyro x y z t) s = .next (emitted ⟨.gyroscope, 0x52, x, y, z, t⟩) ∧
    exec (.frameAngle x y z t) s = .next (emitted ⟨.angle, 0x53, x, y, z, t⟩) ∧
    exec (.frameMag x y z t) s = .next (emitted ⟨.magnetic, 0x54, x, y, z, t⟩) ∧
    ∀ id, exec (.frameUnknown id x y z t) s = .next (emitted ⟨.unknown id, id, x, y, z, t⟩)

/-- While OUT is full every frame row is held: nothing changes but the outcome the STEP returns
(41_stream_reassembler.md R163; log 3). -/
def Obligations.FrameRowsAreHeldWhileOutIsFull : Prop :=
  ∀ (x y z t : I16) (id : Byte) (s : State), s.out.isSome = true →
    ∀ i ∈ [Instr.frameAcc x y z t, .frameGyro x y z t, .frameAngle x y z t, .frameMag x y z t,
      .frameUnknown id x y z t], exec i s = .next { s with lastStep := some .held }

/-- A STEP runs the wire-format row that the decoder reads at the front of BUF (41_stream_reassembler.md R163;
log 3). -/
def Obligations.StepExecutesTheFrameAtTheFront : Prop :=
  ∀ (s : State) (i : Instr), decodeWire (s.buf.take 11) = .ok i → exec .step s = exec i s

/-! The configuration commands. -/

/-- Each command, while no call has failed and the Transport answers its two calls with success, writes its four bytes,
flushes and waits 100 ms, and changes nothing else (30_encoding.md R114, 45_boundary_software.md R213; how the model holds
the Transport is log 9, the fixed wait log 18). -/
def Obligations.ConfigCommandsWriteFlushAndWait : Prop :=
  ∀ s : State, s.link.error = none → s.link.answers.headD true = true → s.link.answers.tail.headD true = true →
    ∀ p ∈ [(Instr.cfgProtocolSelect, [(0xFF : Byte), 0xAA, 0x03, 0x00]), (.cfgEnableStreaming, [0xFF, 0xAA, 0x27, 0x00]),
        (.cfgDisableAllChannels, [0xFF, 0xAA, 0x02, 0x00]), (.cfgEnableAcceleration, [0xFF, 0xAA, 0x02, 0x01]),
        (.cfgEnableGyroscope, [0xFF, 0xAA, 0x02, 0x04]), (.cfgEnableAngle, [0xFF, 0xAA, 0x02, 0x08]),
        (.cfgSetOutputRate, [0xFF, 0xAA, 0x03, 0x08])],
      exec p.1 s = .next { s with link := { s.link with
        calls := s.link.calls ++ [.write p.2 true, .flush true, .delay 100], answers := s.link.answers.drop 2 } }

/-- The configuration commands where the write or the flush fails, or the sequence has ended before: a failing call is the
last one made, and its error ends the sequence; after that a command does nothing; nothing else changes
(45_boundary_software.md R214; log 9, log 10). -/
def Obligations.ConfigFailureEndsTheSequence : Prop :=
  ∀ s : State,
    ∀ p ∈ [(Instr.cfgProtocolSelect, [(0xFF : Byte), 0xAA, 0x03, 0x00]), (.cfgEnableStreaming, [0xFF, 0xAA, 0x27, 0x00]),
        (.cfgDisableAllChannels, [0xFF, 0xAA, 0x02, 0x00]), (.cfgEnableAcceleration, [0xFF, 0xAA, 0x02, 0x01]),
        (.cfgEnableGyroscope, [0xFF, 0xAA, 0x02, 0x04]), (.cfgEnableAngle, [0xFF, 0xAA, 0x02, 0x08]),
        (.cfgSetOutputRate, [0xFF, 0xAA, 0x03, 0x08])],
      (∀ e, s.link.error = some e → exec p.1 s = .next s) ∧
      (s.link.error = none → s.link.answers.headD true = false →
        exec p.1 s = .next { s with link := { s.link with
          calls := s.link.calls ++ [.write p.2 false], answers := s.link.answers.tail, error := some .writeFailed } }) ∧
      (s.link.error = none → s.link.answers.headD true = true → s.link.answers.tail.headD true = false →
        exec p.1 s = .next { s with link := { s.link with
          calls := s.link.calls ++ [.write p.2 true, .flush false], answers := s.link.answers.drop 2,
          error := some .flushFailed } })

/-- On a link on which nothing fails, the handshake makes for each of the seven literals, in order, a write, a flush and a
wait of 100 ms, and its byte stream is the 28 bytes of the spec (45_boundary_software.md R213; how the model holds the
Transport is log 9, the fixed wait log 18). -/
def Obligations.HandshakeSendsTheSevenLiteralsInOrder : Prop :=
  ∀ l : Link, l.error = none → (∀ a ∈ l.answers, a = true) →
    (runHandshake l).error = none ∧
    (runHandshake l).calls = l.calls ++
      [[(0xFF : Byte), 0xAA, 0x03, 0x00], [0xFF, 0xAA, 0x27, 0x00], [0xFF, 0xAA, 0x02, 0x00], [0xFF, 0xAA, 0x02, 0x01],
        [0xFF, 0xAA, 0x02, 0x04], [0xFF, 0xAA, 0x02, 0x08], [0xFF, 0xAA, 0x03, 0x08]].flatMap
        (fun bytes => [.write bytes true, .flush true, .delay 100]) ∧
    (runHandshake l).wireBytes = l.wireBytes ++
      [0xFF, 0xAA, 0x03, 0x00, 0xFF, 0xAA, 0x27, 0x00, 0xFF, 0xAA, 0x02, 0x00, 0xFF, 0xAA, 0x02, 0x01,
        0xFF, 0xAA, 0x02, 0x04, 0xFF, 0xAA, 0x02, 0x08, 0xFF, 0xAA, 0x03, 0x08]

/-- Calls already made are not undone, whatever fails later, and a sequence that has ended sends nothing more
(45_boundary_software.md R214; log 9). -/
def Obligations.SentCommandsAreNotUndone : Prop :=
  ∀ (cs : List CfgCmd) (l : Link), l.calls <+: (sendAll cs l).calls ∧
    (l.error.isSome = true → sendAll cs l = l) ∧
    (∀ ds : List CfgCmd, (sendAll cs l).calls <+: (sendAll (cs ++ ds) l).calls)

/-- A configuration word changes the host's side of the link and nothing of the block (30_encoding.md R113; log 9). -/
def Obligations.ConfigCommandsDoNotTouchTheBlock : Prop :=
  ∀ (s t : State) (w : CfgWord) (rest : List Request), s.pending = .cfg w :: rest → StepsTo s t →
    t = { s with pending := rest, link := t.link } ∧ s.link.calls <+: t.link.calls

/-! The machine. -/

/-- A step runs the instruction decoded from the request at the head, in the state without that request; a STEP whose window
decodes runs the row in the window (log 3); a clock edge runs the clocked mapping; a configuration word that is no
instruction is refused by name (log 11); with nothing presented the machine waits (log 4, log 18). -/
def Obligations.StepRunsTheDecodedRequest : Prop :=
  ∀ (s : State) (rest : List Request),
    (∀ w, s.pending = .port w :: rest → step s = exec (decodePort w) { s with pending := rest }) ∧
    (∀ w i, s.pending = .port w :: rest → decodePort w = .step → decodeWire (s.buf.take 11) = .ok i →
      step s = exec i { s with pending := rest }) ∧
    (∀ w i, s.pending = .cfg w :: rest → decodeCfg w = .ok i → step s = exec i { s with pending := rest }) ∧
    (∀ w e, s.pending = .cfg w :: rest → decodeCfg w = .error e → step s = .refused (.unlistedCommand w)) ∧
    (∀ p, s.pending = .edge p :: rest → step s = .next (clockEdge p { s with pending := rest })) ∧
    (s.pending = [] → step s = .next s)

/-- Every step keeps the machine's invariant: BUF within BUF_CAP (10_state.md R34), OVF 0 while BUF_CAP is UNBOUNDED
(R38), and every Frame in OUT and TAKEN of the kind its type id selects (R37). -/
def Obligations.EveryStepKeepsTheInvariant : Prop :=
  ∀ s t : State, BlockInv s → StepsTo s t → BlockInv t

/-- The reset state of every capacity has the invariant (10_state.md R34, R38, R47). -/
def Obligations.ResetStateHasTheInvariant : Prop :=
  BlockInv State.reset ∧ ∀ cap : Config.BufCap, BlockInv (State.resetWith cap)

/-- After RESET, and in the model's initial state, BUF is empty, OUT holds nothing and OVF is 0 (10_state.md R47). -/
def Obligations.ResetStateIsTheTable : Prop :=
  (∀ s t : State, exec .reset s = .next t → t.buf = [] ∧ t.out = none ∧ t.ovf = false) ∧
    State.reset.buf = [] ∧ State.reset.out = none ∧ State.reset.ovf = false

/-- No operation of the block and no clock edge faults or is refused, in any state (60_exceptions.md R240, R248; the list of
requests is log 4). -/
def Obligations.BlockOperationsAlwaysGoOn : Prop :=
  ∀ (s : State) (rest : List Request),
    (∀ w, s.pending = .port w :: rest → ∃ t, StepsTo s t ∧ t.pending = rest) ∧
    (∀ p, s.pending = .edge p :: rest → ∃ t, StepsTo s t ∧ t.pending = rest)

/-- OVF is set only by a byte presented to a block of finite capacity, and cleared only by a reset (10_state.md R38, part of
which the spec derives). -/
def Obligations.OvfIsSticky : Prop :=
  ∀ (s t : State), StepsTo s t →
    (s.ovf = true → t.ovf = false → ∃ r rest, s.pending = r :: rest ∧ r.resets = true) ∧
    (s.ovf = false → t.ovf = true → bufCapLimit s.cap ≠ none ∧ ∃ r rest b, s.pending = r :: rest ∧ r.pushed = [b])

/-- BUF changes only at its ends: 1 or 11 bytes leave the front, the byte presented may be added at the back, and a reset
empties it (10_state.md R33; the list of requests is log 4). -/
def Obligations.BufChangesOnlyAtItsEnds : Prop :=
  ∀ (s t : State) (r : Request) (rest : List Request), s.pending = r :: rest → StepsTo s t →
    (r.resets = true ∧ t.buf = []) ∨
    (r.resets = false ∧ ∃ k added, (k = 0 ∨ k = 1 ∨ k = 11) ∧ (added = [] ∨ added = r.pushed) ∧
      t.buf = s.buf.drop k ++ added)

/-- A frame in OUT stays there until a TAKE moves it to the consumer's log or a reset discards it (10_state.md R35,
41_stream_reassembler.md R168; the list of requests is log 4). -/
def Obligations.OutIsNeverOverwritten : Prop :=
  ∀ (s t : State) (f : Frame), s.out = some f → StepsTo s t →
    (t.out = some f ∧ t.taken = s.taken) ∨ t.taken = s.taken ++ [f] ∨
      (t.out = none ∧ ∃ r rest, s.pending = r :: rest ∧ r.resets = true)

/-- A frame that newly appears in OUT was decoded from the 11 bytes at the front of BUF, and they left it
(41_stream_reassembler.md R177, which the spec derives; the list of requests is log 4). -/
def Obligations.EmittedFramesComeFromTheFront : Prop :=
  ∀ (s t : State) (g : Frame), StepsTo s t → t.out = some g →
    (s.out = some g ∧ t.taken = s.taken) ∨
      (decodeFrame (s.buf.take 11) = some g ∧ s.buf.drop 11 <+: t.buf ∧ t.buf.length ≤ s.buf.length - 10)

/-- The consumer's log only grows, by the frame that was in OUT (41_stream_reassembler.md R166, 70_reset_and_hazards.md
R271; the list of requests is log 4). -/
def Obligations.TakenOnlyGrowsByTheFrameInOut : Prop :=
  ∀ s t : State, StepsTo s t → t.taken = s.taken ∨ ∃ f, s.out = some f ∧ t.taken = s.taken ++ [f]

/-- With fewer than 11 bytes buffered nothing is dropped or emitted: until more bytes arrive or a reset, the tail stays, and
it is no frame (41_stream_reassembler.md R178). -/
def Obligations.TailIsRetained : Prop :=
  ∀ (s t : State) (r : Request) (rest : List Request), s.pending = r :: rest → r.resets = false → s.buf.length < 11 →
    StepsTo s t → s.buf <+: t.buf ∧ (r.pushed = [] → t.buf = s.buf) ∧ (t.out = s.out ∨ t.out = none) ∧
      decodeFrame s.buf = none

/-! The reassembler's laws. -/

/-- EXTRACT's three recursion equations (41_stream_reassembler.md R170). -/
def Obligations.ExtractFollowsItsRecursion : Prop :=
  ∀ bytes : List Byte,
    (bytes.length < 11 → extract bytes = ([], bytes)) ∧
    (∀ g, 11 ≤ bytes.length → decodeFrame (bytes.take 11) = some g →
      extract bytes = (g :: (extract (bytes.drop 11)).1, (extract (bytes.drop 11)).2)) ∧
    (11 ≤ bytes.length → decodeFrame (bytes.take 11) = none → extract bytes = extract (bytes.drop 1))

/-- The tail is a suffix of at most 10 bytes; a sequence of at most 10 bytes is its own tail; after a drop the tail has
exactly 10 bytes (41_stream_reassembler.md R171, which the spec derives). The last clause says it of the scan whose last
frame, if any, ends before `rest`. -/
def Obligations.TailIsAShortSuffix : Prop :=
  ∀ bytes : List Byte,
    (extract bytes).2 <:+ bytes ∧ (extract bytes).2.length ≤ 10 ∧
    (bytes.length ≤ 10 → extract bytes = ([], bytes)) ∧
    ((extract bytes).1 = [] → 11 ≤ bytes.length → (extract bytes).2.length = 10) ∧
    (∀ pre g, (extract bytes).1 = pre ++ [g] → ∃ w rest, decodeFrame w = some g ∧ w ++ rest <:+ bytes ∧
      ((rest.length ≤ 10 ∧ (extract bytes).2 = rest) ∨ (11 ≤ rest.length ∧ (extract bytes).2.length = 10)))

/-- Garbage without a sync byte before a valid frame is skipped, the frame is found, and what follows is scanned as if it
stood alone; at most ten following bytes are all kept (41_stream_reassembler.md R175, which the spec derives). -/
def Obligations.ResynchronizationFindsTheNextFrame : Prop :=
  ∀ (garbage frame rest : List Byte) (g : Frame), (∀ b ∈ garbage, b ≠ 0x55) → decodeFrame frame = some g →
    extract (garbage ++ frame ++ rest) = (g :: (extract rest).1, (extract rest).2) ∧
    (rest.length ≤ 10 → extract (garbage ++ frame ++ rest) = ([g], rest))

/-- Concatenated valid frames are extracted one by one with an empty tail (41_stream_reassembler.md R176, which the spec
derives). -/
def Obligations.ConcatenatedFramesAreAllFound : Prop :=
  ∀ l : List (List Byte × Frame), (∀ p ∈ l, decodeFrame p.1 = some p.2) →
    extract (l.flatMap Prod.fst) = (l.map Prod.snd, [])

/-- DRAIN from an empty OUT takes exactly the frames EXTRACT finds, in order, and leaves exactly its tail, and touches
neither OVF nor the capacity (41_stream_reassembler.md R172, which the spec derives; log 23). -/
def Obligations.DrainEqualsExtract : Prop :=
  ∀ s : State, s.out = none →
    (drain s).taken = s.taken ++ (extract s.buf).1 ∧ (drain s).buf = (extract s.buf).2 ∧ (drain s).out = none ∧
      (drain s).ovf = s.ovf ∧ (drain s).cap = s.cap

/-- DRAIN from an empty OUT ends after at most `2 * (len - 10)` operations when at least 11 bytes are buffered, and needs
none otherwise (30_encoding.md R116; log 23). -/
def Obligations.DrainEndsWithinItsBound : Prop :=
  ∀ s : State, s.out = none →
    (s.buf.length < 11 → s.drainable = false) ∧
    ∀ fuel, 2 * (s.buf.length - 10) ≤ fuel → (drainFuel fuel s).drainable = false ∧ drainFuel fuel s = drain s

/-- After every DRAIN, from any state, at most 10 bytes are buffered and OUT is empty (41_stream_reassembler.md R179, which
the spec derives). -/
def Obligations.DrainBoundsTheBuffer : Prop :=
  ∀ s : State, (drain s).buf.length ≤ 10 ∧ (drain s).out = none

/-- In a run from a reset state of any capacity, over any requests without a reset, that has set no OVF, the frames loaded so
far and those still in BUF are the ones EXTRACT finds in all bytes presented, whatever the interleaving
(41_stream_reassembler.md R173, which the spec derives; the list of requests is log 4). -/
def Obligations.FramesDoNotDependOnTheInterleaving : Prop :=
  ∀ (cap : Config.BufCap) (rs : List Request) (t : State), (∀ r ∈ rs, r.resets = false) →
    RunsTo rs.length (presenting rs (State.resetWith cap)) t → t.ovf = false →
    extract (pushedBytes rs) = (t.taken ++ t.out.toList ++ (extract t.buf).1, (extract t.buf).2)

/-- Pushing and draining chunk by chunk gives the frames and the tail of pushing everything and draining once, where nothing
can overflow (41_stream_reassembler.md R174, which the spec derives). -/
def Obligations.ChunkingDoesNotMatter : Prop :=
  ∀ (s : State) (first second : List Byte), s.cap = .unbounded → s.out = none →
    let twice := drain (pushAll second (drain (pushAll first s)))
    let once := drain (pushAll (first ++ second) s)
    twice.taken = once.taken ∧ twice.buf = once.buf ∧ twice.out = once.out

/-! The clocked mapping. -/

/-- A cycle without reset is TAKE where out_valid and out_ready are both 1, then STEP exactly once, then PUSH where
in_valid is 1, each on the result of the one before; a cycle with rst = 1 is RESET alone; the outputs are those of the state
that the edges have left (41_stream_reassembler.md R180). -/
def Obligations.ClockEdgeRunsTakeStepPush : Prop :=
  ∀ (p : Pins) (s : State),
    (p.rst = true → exec .reset s = .next (clockEdge p s)) ∧
    (p.rst = false → ∃ u v,
      (if s.out.isSome = true ∧ p.outReady = true then exec .take s = .next u else u = s) ∧
      exec .step u = .next v ∧
      (if p.inValid = true then exec (.push p.inData) v = .next (clockEdge p s) else clockEdge p s = v)) ∧
    (∀ n, (ports n (clockEdge p s)).outValid = (clockEdge p s).out.isSome ∧
      (ports n (clockEdge p s)).ovf = (clockEdge p s).ovf ∧
      ∀ f, (clockEdge p s).out = some f → (ports n (clockEdge p s)).outFrame = pack f)

/-- With a consumer that is ready in every cycle no PUSH overflows and at most 11 bytes are buffered at each edge, for every
capacity, from every such state and so from reset (41_stream_reassembler.md R181, which the spec derives). -/
def Obligations.ReadyConsumerNeverOverflows : Prop :=
  ∀ (ps : List Pins) (s : State), (∀ p ∈ ps, p.outReady = true) → s.buf.length ≤ 11 → s.ovf = false →
    (clockRun ps s).buf.length ≤ 11 ∧ (clockRun ps s).ovf = false

/-- With a ready consumer, a frame whose last byte is pushed in one cycle is on out_frame two cycles later: the STEP of the
cycle between emits it. Its first ten bytes are all that BUF holds before that cycle, or follow one byte there that the
cycle's own STEP drops (41_stream_reassembler.md R182, which the spec derives). -/
def Obligations.FrameIsVisibleTwoCyclesAfterItsLastByte : Prop :=
  ∀ (s : State) (p q : Pins) (g : Frame) (n : Nat), p.rst = false → q.rst = false →
    p.inValid = true → p.outReady = true → q.outReady = true →
    decodeFrame (s.buf ++ [p.inData]) = some g ∨
      (s.buf.length = 11 ∧ decodeFrame s.buf = none ∧ decodeFrame (s.buf.drop 1 ++ [p.inData]) = some g) →
    (ports n (clockRun [p, q] s)).outValid = true ∧ (ports n (clockRun [p, q] s)).outFrame = pack g ∧
      (clockRun [p, q] s).lastStep = some (.emit g)

/-- While OUT is full, the front window is valid and the consumer is not ready, every byte presented is kept until BUF_CAP is
reached, and the next one is lost and sets OVF (70_reset_and_hazards.md R277, which the spec derives). -/
def Obligations.StalledConsumerLeadsToOverflow : Prop :=
  ∀ (s : State) (bytes : List Byte) (b : Byte) (f g : Frame) (n : Nat), s.out = some f →
    decodeFrame (s.buf.take 11) = some g → bufCapLimit s.cap = some n → s.buf.length + bytes.length = n →
    let stalled := fun d : Byte => Pins.mk false true d false
    (clockRun (bytes.map stalled) s).buf = s.buf ++ bytes ∧ (clockRun (bytes.map stalled) s).ovf = s.ovf ∧
    (clockRun ((bytes ++ [b]).map stalled) s).buf = s.buf ++ bytes ∧
    (clockRun ((bytes ++ [b]).map stalled) s).ovf = true ∧ (clockRun ((bytes ++ [b]).map stalled) s).out = some f

/-! The host software. -/

/-- The Scaler's formula with its three full scales and units (45_boundary_software.md R219), and the frames it leaves
unchanged and the temperature it refuses (R220). The two's-complement reading of a raw field is log 12; the exact rationals
and the refused temperature are log 16. -/
def Obligations.ScalerFollowsItsFormula : Prop :=
  ∀ f : Frame,
    (f.kind = .acceleration → scaleFrame f = .physical ((f.x.toInt : Rat) / 32768 * 16) ((f.y.toInt : Rat) / 32768 * 16)
      ((f.z.toInt : Rat) / 32768 * 16) .g) ∧
    (f.kind = .gyroscope → scaleFrame f = .physical ((f.x.toInt : Rat) / 32768 * 2000)
      ((f.y.toInt : Rat) / 32768 * 2000) ((f.z.toInt : Rat) / 32768 * 2000) .degreesPerSecond) ∧
    (f.kind = .angle → scaleFrame f = .physical ((f.x.toInt : Rat) / 32768 * 180) ((f.y.toInt : Rat) / 32768 * 180)
      ((f.z.toInt : Rat) / 32768 * 180) .degrees) ∧
    (f.kind = .magnetic → scaleFrame f = .unchanged f) ∧
    (∀ id, f.kind = .unknown id → scaleFrame f = .unchanged f) ∧
    scaleTemperature f = none

/-- The Baud Detector finds a rate exactly when a candidate is accepted and every one before it is rejected, with the
channel open at that rate, and is exhausted exactly when every candidate is rejected. A candidate whose open fails is
rejected; one that opens and takes the probe commands is accepted exactly when its read returns bytes that pass BAUD_ACCEPT,
and rejected otherwise (45_boundary_software.md R216, R217; a failing write of the probe is log 14, a failing read of it
log 26, the size of the read log 25, the channel given up log 27). `before k` is the state in which candidate `k` is tried
once those before it are rejected. -/
def Obligations.DetectReturnsTheFirstAcceptedRate : Prop :=
  ∀ (p : Config.HostParams) (path : String),
    (∀ (cs : List Nat) (s : State),
      let before := fun k => (cs.take k).foldl (fun u b => (probe p path b u).2.dropChannel) s
      let rejects := fun k => ∀ b, cs[k]? = some b → (probe p path b (before k)).1 = .rejected
      (∀ baud t, detectFrom p path cs s = (.found baud, t) ↔
        ∃ k, cs[k]? = some baud ∧ (∀ j < k, rejects j) ∧ probe p path baud (before k) = (.accepted, t)) ∧
      (∀ baud t, detectFrom p path cs s = (.found baud, t) →
        t.link.channel = some { path := path, baud := baud, timeoutMs := p.probeTimeoutMs }) ∧
      ((detectFrom p path cs s).1 = .exhausted ↔ ∀ k, rejects k)) ∧
    (∀ (baud : Nat) (s : State) (e : OpenError), s.link.opens.headD .opened = .failed e →
      (probe p path baud s).1 = .rejected) ∧
    (∀ (baud : Nat) (s : State), s.link.opens.headD .opened = .opened →
      (sendAll p.probeCmds (s.link.openAt path baud p.probeTimeoutMs)).error = none →
      let passes := ∃ bytes, s.link.reads.headD .timeout = .data bytes ∧
        (p.baudAccept = .nonEmptyRead → bytes.take p.probeReadLen ≠ []) ∧
        (p.baudAccept = .syncPresent → (0x55 : Byte) ∈ bytes.take p.probeReadLen)
      (passes → (probe p path baud s).1 = .accepted) ∧ (¬ passes → (probe p path baud s).1 = .rejected))

/-- The Device-Responding Check succeeds exactly when one of its first three reads returns the sync byte and every read
before it was a timeout or data without it, a timed-out read counting as one of the three. It makes from one to three reads,
and another follows only a timeout or data without the sync byte, so none follows a success or an I/O error
(45_boundary_software.md R218). `reads` is what the reads return: the link's list of answers is log 9, a read with none
listed is a timeout (log 15), and an answer is cut to the size asked for (log 25). -/
def Obligations.VerifyLooksAtThreeReads : Prop :=
  ∀ (maxLen : Nat) (s : State),
    let reads := s.link.reads.map (ReadAnswer.upTo maxLen)
    ((verifyDevice maxLen s).1 = true ↔
      ∃ k < 3, (∃ bytes, reads[k]? = some (.data bytes) ∧ (0x55 : Byte) ∈ bytes) ∧
        ∀ j < k, reads[j]? = some .timeout ∨ ∃ bytes, reads[j]? = some (.data bytes) ∧ (0x55 : Byte) ∉ bytes) ∧
    ∃ made, 1 ≤ made ∧ made ≤ 3 ∧
      (verifyDevice maxLen s).2.link.calls =
        s.link.calls ++ (List.range made).map (fun j => .read maxLen (reads.getD j .timeout)) ∧
      ∀ j, j + 1 < made → reads.getD j .timeout = .timeout ∨
        ∃ bytes, reads.getD j .timeout = .data bytes ∧ (0x55 : Byte) ∉ bytes
end

