-- ==== Sys2Proof/Laws/Decoder.lean ====
section
/-! SUPPORT. What DECODE and EXTRACT can do. -/

namespace Sys2Proof.Machine

/-- DECODE accepts exactly the valid frames, with the fields of the window. -/
theorem decodeFrame_eq_some_iff {w : List Byte} {g : Frame} :
    decodeFrame w = some g ↔ w.length = 11 ∧ byteAt w 0 = 0x55 ∧ checksum w = byteAt w 10 ∧
      g = ⟨classify (byteAt w 1), byteAt w 1, fieldX w, fieldY w, fieldZ w, fieldT w⟩ := by
  unfold decodeFrame Config.frameLen Config.sync
  split_ifs <;> simp_all [eq_comm]

/-- The sync test of STEP repeats DECODE's own (41_stream_reassembler.md R170). -/
theorem windowFrame_eq_decodeFrame (w : List Byte) : windowFrame w = decodeFrame w := by
  unfold windowFrame decodeFrame
  split_ifs <;> simp_all

/-- An accepted window has 11 bytes. -/
theorem length_of_decodeFrame {w : List Byte} {g : Frame} (h : decodeFrame w = some g) : w.length = 11 :=
  (decodeFrame_eq_some_iff.1 h).1

/-- An accepted Frame has the kind its type id selects. -/
theorem coherent_of_decodeFrame {w : List Byte} {g : Frame} (h : decodeFrame w = some g) : g.coherent = true := by
  obtain ⟨-, -, -, rfl⟩ := decodeFrame_eq_some_iff.1 h
  simp [Frame.coherent]

/-- More fuel than bytes does not change what EXTRACT finds. -/
theorem extractFuel_eq_extract {fuel : Nat} {bytes : List Byte} (h : bytes.length ≤ fuel) :
    extractFuel fuel bytes = extract bytes := by
  suffices H : ∀ n m (bs : List Byte), bs.length ≤ n → bs.length ≤ m → extractFuel n bs = extractFuel m bs from
    H _ _ _ h le_rfl
  intro n
  induction n with
  | zero =>
    intro m bs hn _
    obtain rfl : bs = [] := List.length_eq_zero_iff.1 (by omega)
    cases m <;> simp [extractFuel, Config.frameLen]
  | succ n ih =>
    intro m bs hn hm
    cases m with
    | zero =>
      obtain rfl : bs = [] := List.length_eq_zero_iff.1 (by omega)
      simp [extractFuel, Config.frameLen]
    | succ m =>
      simp only [extractFuel, Config.frameLen]
      by_cases hlen : bs.length < 11
      · simp [hlen]
      · simp only [hlen, if_false]
        have h1 := ih m (bs.drop 1) (by simp; omega) (by simp; omega)
        have h11 := ih m (bs.drop 11) (by simp; omega) (by simp; omega)
        rw [h1, h11]

end Sys2Proof.Machine
end

