-- ==== Sys2Proof/Laws/State.lean ====
section
/-! SUPPORT. One lemma for each field of State and of Link under each named update, and the fields of the reset state. -/

namespace Sys2Proof.Machine

variable (s : State)

@[simp] theorem State.append_buf (b : Byte) : (s.append b).buf = s.buf ++ [b] := rfl
@[simp] theorem State.append_out (b : Byte) : (s.append b).out = s.out := rfl
@[simp] theorem State.append_ovf (b : Byte) : (s.append b).ovf = s.ovf := rfl
@[simp] theorem State.append_cap (b : Byte) : (s.append b).cap = s.cap := rfl
@[simp] theorem State.append_taken (b : Byte) : (s.append b).taken = s.taken := rfl
@[simp] theorem State.append_lastStep (b : Byte) : (s.append b).lastStep = s.lastStep := rfl
@[simp] theorem State.append_lastTake (b : Byte) : (s.append b).lastTake = s.lastTake := rfl
@[simp] theorem State.append_pending (b : Byte) : (s.append b).pending = s.pending := rfl
@[simp] theorem State.append_link (b : Byte) : (s.append b).link = s.link := rfl

@[simp] theorem State.dropFront_buf (n : Nat) : (s.dropFront n).buf = s.buf.drop n := rfl
@[simp] theorem State.dropFront_out (n : Nat) : (s.dropFront n).out = s.out := rfl
@[simp] theorem State.dropFront_ovf (n : Nat) : (s.dropFront n).ovf = s.ovf := rfl
@[simp] theorem State.dropFront_cap (n : Nat) : (s.dropFront n).cap = s.cap := rfl
@[simp] theorem State.dropFront_taken (n : Nat) : (s.dropFront n).taken = s.taken := rfl
@[simp] theorem State.dropFront_lastStep (n : Nat) : (s.dropFront n).lastStep = s.lastStep := rfl
@[simp] theorem State.dropFront_lastTake (n : Nat) : (s.dropFront n).lastTake = s.lastTake := rfl
@[simp] theorem State.dropFront_pending (n : Nat) : (s.dropFront n).pending = s.pending := rfl
@[simp] theorem State.dropFront_link (n : Nat) : (s.dropFront n).link = s.link := rfl

@[simp] theorem State.load_buf (g : Frame) : (s.load g).buf = s.buf := rfl
@[simp] theorem State.load_out (g : Frame) : (s.load g).out = some g := rfl
@[simp] theorem State.load_ovf (g : Frame) : (s.load g).ovf = s.ovf := rfl
@[simp] theorem State.load_cap (g : Frame) : (s.load g).cap = s.cap := rfl
@[simp] theorem State.load_taken (g : Frame) : (s.load g).taken = s.taken := rfl
@[simp] theorem State.load_lastStep (g : Frame) : (s.load g).lastStep = s.lastStep := rfl
@[simp] theorem State.load_lastTake (g : Frame) : (s.load g).lastTake = s.lastTake := rfl
@[simp] theorem State.load_pending (g : Frame) : (s.load g).pending = s.pending := rfl
@[simp] theorem State.load_link (g : Frame) : (s.load g).link = s.link := rfl

@[simp] theorem State.clearOut_buf : (s.clearOut).buf = s.buf := rfl
@[simp] theorem State.clearOut_out : (s.clearOut).out = none := rfl
@[simp] theorem State.clearOut_ovf : (s.clearOut).ovf = s.ovf := rfl
@[simp] theorem State.clearOut_cap : (s.clearOut).cap = s.cap := rfl
@[simp] theorem State.clearOut_taken : (s.clearOut).taken = s.taken := rfl
@[simp] theorem State.clearOut_lastStep : (s.clearOut).lastStep = s.lastStep := rfl
@[simp] theorem State.clearOut_lastTake : (s.clearOut).lastTake = s.lastTake := rfl
@[simp] theorem State.clearOut_pending : (s.clearOut).pending = s.pending := rfl
@[simp] theorem State.clearOut_link : (s.clearOut).link = s.link := rfl

@[simp] theorem State.raiseOvf_buf : (s.raiseOvf).buf = s.buf := rfl
@[simp] theorem State.raiseOvf_out : (s.raiseOvf).out = s.out := rfl
@[simp] theorem State.raiseOvf_ovf : (s.raiseOvf).ovf = true := rfl
@[simp] theorem State.raiseOvf_cap : (s.raiseOvf).cap = s.cap := rfl
@[simp] theorem State.raiseOvf_taken : (s.raiseOvf).taken = s.taken := rfl
@[simp] theorem State.raiseOvf_lastStep : (s.raiseOvf).lastStep = s.lastStep := rfl
@[simp] theorem State.raiseOvf_lastTake : (s.raiseOvf).lastTake = s.lastTake := rfl
@[simp] theorem State.raiseOvf_pending : (s.raiseOvf).pending = s.pending := rfl
@[simp] theorem State.raiseOvf_link : (s.raiseOvf).link = s.link := rfl

@[simp] theorem State.logTaken_buf (g : Frame) : (s.logTaken g).buf = s.buf := rfl
@[simp] theorem State.logTaken_out (g : Frame) : (s.logTaken g).out = s.out := rfl
@[simp] theorem State.logTaken_ovf (g : Frame) : (s.logTaken g).ovf = s.ovf := rfl
@[simp] theorem State.logTaken_cap (g : Frame) : (s.logTaken g).cap = s.cap := rfl
@[simp] theorem State.logTaken_taken (g : Frame) : (s.logTaken g).taken = s.taken ++ [g] := rfl
@[simp] theorem State.logTaken_lastStep (g : Frame) : (s.logTaken g).lastStep = s.lastStep := rfl
@[simp] theorem State.logTaken_lastTake (g : Frame) : (s.logTaken g).lastTake = s.lastTake := rfl
@[simp] theorem State.logTaken_pending (g : Frame) : (s.logTaken g).pending = s.pending := rfl
@[simp] theorem State.logTaken_link (g : Frame) : (s.logTaken g).link = s.link := rfl

@[simp] theorem State.stepReturns_buf (r : StepResult) : (s.stepReturns r).buf = s.buf := rfl
@[simp] theorem State.stepReturns_out (r : StepResult) : (s.stepReturns r).out = s.out := rfl
@[simp] theorem State.stepReturns_ovf (r : StepResult) : (s.stepReturns r).ovf = s.ovf := rfl
@[simp] theorem State.stepReturns_cap (r : StepResult) : (s.stepReturns r).cap = s.cap := rfl
@[simp] theorem State.stepReturns_taken (r : StepResult) : (s.stepReturns r).taken = s.taken := rfl
@[simp] theorem State.stepReturns_lastStep (r : StepResult) : (s.stepReturns r).lastStep = some r := rfl
@[simp] theorem State.stepReturns_lastTake (r : StepResult) : (s.stepReturns r).lastTake = s.lastTake := rfl
@[simp] theorem State.stepReturns_pending (r : StepResult) : (s.stepReturns r).pending = s.pending := rfl
@[simp] theorem State.stepReturns_link (r : StepResult) : (s.stepReturns r).link = s.link := rfl

@[simp] theorem State.takeReturns_buf (r : Option Frame) : (s.takeReturns r).buf = s.buf := rfl
@[simp] theorem State.takeReturns_out (r : Option Frame) : (s.takeReturns r).out = s.out := rfl
@[simp] theorem State.takeReturns_ovf (r : Option Frame) : (s.takeReturns r).ovf = s.ovf := rfl
@[simp] theorem State.takeReturns_cap (r : Option Frame) : (s.takeReturns r).cap = s.cap := rfl
@[simp] theorem State.takeReturns_taken (r : Option Frame) : (s.takeReturns r).taken = s.taken := rfl
@[simp] theorem State.takeReturns_lastStep (r : Option Frame) : (s.takeReturns r).lastStep = s.lastStep := rfl
@[simp] theorem State.takeReturns_lastTake (r : Option Frame) : (s.takeReturns r).lastTake = some r := rfl
@[simp] theorem State.takeReturns_pending (r : Option Frame) : (s.takeReturns r).pending = s.pending := rfl
@[simp] theorem State.takeReturns_link (r : Option Frame) : (s.takeReturns r).link = s.link := rfl

@[simp] theorem State.withLink_buf (l : Link) : (s.withLink l).buf = s.buf := rfl
@[simp] theorem State.withLink_out (l : Link) : (s.withLink l).out = s.out := rfl
@[simp] theorem State.withLink_ovf (l : Link) : (s.withLink l).ovf = s.ovf := rfl
@[simp] theorem State.withLink_cap (l : Link) : (s.withLink l).cap = s.cap := rfl
@[simp] theorem State.withLink_taken (l : Link) : (s.withLink l).taken = s.taken := rfl
@[simp] theorem State.withLink_lastStep (l : Link) : (s.withLink l).lastStep = s.lastStep := rfl
@[simp] theorem State.withLink_lastTake (l : Link) : (s.withLink l).lastTake = s.lastTake := rfl
@[simp] theorem State.withLink_pending (l : Link) : (s.withLink l).pending = s.pending := rfl
@[simp] theorem State.withLink_link (l : Link) : (s.withLink l).link = l := rfl

@[simp] theorem State.withPending_buf (p : List Request) : (s.withPending p).buf = s.buf := rfl
@[simp] theorem State.withPending_out (p : List Request) : (s.withPending p).out = s.out := rfl
@[simp] theorem State.withPending_ovf (p : List Request) : (s.withPending p).ovf = s.ovf := rfl
@[simp] theorem State.withPending_cap (p : List Request) : (s.withPending p).cap = s.cap := rfl
@[simp] theorem State.withPending_taken (p : List Request) : (s.withPending p).taken = s.taken := rfl
@[simp] theorem State.withPending_lastStep (p : List Request) : (s.withPending p).lastStep = s.lastStep := rfl
@[simp] theorem State.withPending_lastTake (p : List Request) : (s.withPending p).lastTake = s.lastTake := rfl
@[simp] theorem State.withPending_pending (p : List Request) : (s.withPending p).pending = p := rfl
@[simp] theorem State.withPending_link (p : List Request) : (s.withPending p).link = s.link := rfl

@[simp] theorem resetBlock_buf : (resetBlock s).buf = [] := rfl
@[simp] theorem resetBlock_out : (resetBlock s).out = none := rfl
@[simp] theorem resetBlock_ovf : (resetBlock s).ovf = false := rfl
@[simp] theorem resetBlock_cap : (resetBlock s).cap = s.cap := rfl
@[simp] theorem resetBlock_taken : (resetBlock s).taken = s.taken := rfl
@[simp] theorem resetBlock_lastStep : (resetBlock s).lastStep = s.lastStep := rfl
@[simp] theorem resetBlock_lastTake : (resetBlock s).lastTake = s.lastTake := rfl
@[simp] theorem resetBlock_pending : (resetBlock s).pending = s.pending := rfl
@[simp] theorem resetBlock_link : (resetBlock s).link = s.link := rfl

@[simp] theorem State.resetWith_buf (cap : Config.BufCap) : (State.resetWith cap).buf = [] := rfl
@[simp] theorem State.resetWith_out (cap : Config.BufCap) : (State.resetWith cap).out = none := rfl
@[simp] theorem State.resetWith_ovf (cap : Config.BufCap) : (State.resetWith cap).ovf = false := rfl
@[simp] theorem State.resetWith_cap (cap : Config.BufCap) : (State.resetWith cap).cap = cap := rfl
@[simp] theorem State.resetWith_taken (cap : Config.BufCap) : (State.resetWith cap).taken = [] := rfl
@[simp] theorem State.resetWith_lastStep (cap : Config.BufCap) : (State.resetWith cap).lastStep = none := rfl
@[simp] theorem State.resetWith_lastTake (cap : Config.BufCap) : (State.resetWith cap).lastTake = none := rfl
@[simp] theorem State.resetWith_pending (cap : Config.BufCap) : (State.resetWith cap).pending = [] := rfl
@[simp] theorem State.resetWith_link (cap : Config.BufCap) : (State.resetWith cap).link = Link.fresh := rfl

/-! The fields of Link under each call. -/

section

variable (l : Link)

@[simp] theorem Link.write_calls (bytes : List Byte) : (l.write bytes).calls =
    l.calls ++ [.write bytes l.answer] := rfl
@[simp] theorem Link.write_answers (bytes : List Byte) : (l.write bytes).answers = l.answers.tail := rfl
@[simp] theorem Link.write_opens (bytes : List Byte) : (l.write bytes).opens = l.opens := rfl
@[simp] theorem Link.write_reads (bytes : List Byte) : (l.write bytes).reads = l.reads := rfl
@[simp] theorem Link.write_channel (bytes : List Byte) : (l.write bytes).channel = l.channel := rfl
@[simp] theorem Link.write_error (bytes : List Byte) : (l.write bytes).error =
    if l.answer then l.error else some .writeFailed := rfl

@[simp] theorem Link.flush_calls : (l.flush).calls = l.calls ++ [.flush l.answer] := rfl
@[simp] theorem Link.flush_answers : (l.flush).answers = l.answers.tail := rfl
@[simp] theorem Link.flush_opens : (l.flush).opens = l.opens := rfl
@[simp] theorem Link.flush_reads : (l.flush).reads = l.reads := rfl
@[simp] theorem Link.flush_channel : (l.flush).channel = l.channel := rfl
@[simp] theorem Link.flush_error : (l.flush).error = if l.answer then l.error else some .flushFailed := rfl

@[simp] theorem Link.delay_calls (ms : Nat) : (l.delay ms).calls = l.calls ++ [.delay ms] := rfl
@[simp] theorem Link.delay_answers (ms : Nat) : (l.delay ms).answers = l.answers := rfl
@[simp] theorem Link.delay_opens (ms : Nat) : (l.delay ms).opens = l.opens := rfl
@[simp] theorem Link.delay_reads (ms : Nat) : (l.delay ms).reads = l.reads := rfl
@[simp] theorem Link.delay_channel (ms : Nat) : (l.delay ms).channel = l.channel := rfl
@[simp] theorem Link.delay_error (ms : Nat) : (l.delay ms).error = l.error := rfl

@[simp] theorem Link.openAt_calls (path : String) (baud ms : Nat) : (l.openAt path baud ms).calls =
    l.calls ++ [.openAt path baud ms l.openAnswer] := rfl
@[simp] theorem Link.openAt_answers (path : String) (baud ms : Nat) : (l.openAt path baud ms).answers =
    l.answers := rfl
@[simp] theorem Link.openAt_opens (path : String) (baud ms : Nat) : (l.openAt path baud ms).opens =
    l.opens.tail := rfl
@[simp] theorem Link.openAt_reads (path : String) (baud ms : Nat) : (l.openAt path baud ms).reads = l.reads := rfl
@[simp] theorem Link.openAt_channel (path : String) (baud ms : Nat) : (l.openAt path baud ms).channel =
    if l.openAnswer = .opened then some ⟨path, baud, ms⟩ else none := rfl
@[simp] theorem Link.openAt_error (path : String) (baud ms : Nat) : (l.openAt path baud ms).error = l.error := rfl

@[simp] theorem Link.dropChannel_calls : (l.dropChannel).calls = l.calls := rfl
@[simp] theorem Link.dropChannel_answers : (l.dropChannel).answers = l.answers := rfl
@[simp] theorem Link.dropChannel_opens : (l.dropChannel).opens = l.opens := rfl
@[simp] theorem Link.dropChannel_reads : (l.dropChannel).reads = l.reads := rfl
@[simp] theorem Link.dropChannel_channel : (l.dropChannel).channel = none := rfl
@[simp] theorem Link.dropChannel_error : (l.dropChannel).error = l.error := rfl

@[simp] theorem Link.read_calls (n : Nat) : (l.read n).calls = l.calls ++ [.read n (l.readAnswer n)] := rfl
@[simp] theorem Link.read_answers (n : Nat) : (l.read n).answers = l.answers := rfl
@[simp] theorem Link.read_opens (n : Nat) : (l.read n).opens = l.opens := rfl
@[simp] theorem Link.read_reads (n : Nat) : (l.read n).reads = l.reads.tail := rfl
@[simp] theorem Link.read_channel (n : Nat) : (l.read n).channel = l.channel := rfl
@[simp] theorem Link.read_error (n : Nat) : (l.read n).error = l.error := rfl

@[simp] theorem Link.fail_calls (e : TransportError) : (l.fail e).calls = l.calls := rfl
@[simp] theorem Link.fail_answers (e : TransportError) : (l.fail e).answers = l.answers := rfl
@[simp] theorem Link.fail_opens (e : TransportError) : (l.fail e).opens = l.opens := rfl
@[simp] theorem Link.fail_reads (e : TransportError) : (l.fail e).reads = l.reads := rfl
@[simp] theorem Link.fail_channel (e : TransportError) : (l.fail e).channel = l.channel := rfl
@[simp] theorem Link.fail_error (e : TransportError) : (l.fail e).error = some e := rfl

end

/-- The window is a function of BUF alone. -/
theorem State.window_eq : s.window = s.buf.take 11 := rfl

@[simp] theorem State.window_withPending (p : List Request) : (s.withPending p).window = s.window := rfl

/-- FULL is a function of BUF and BUF_CAP alone. -/
theorem State.full_congr {s t : State} (hb : s.buf = t.buf) (hc : s.cap = t.cap) : s.full = t.full := by
  unfold State.full State.bufLen
  rw [hb, hc]

end Sys2Proof.Machine
end

