-- ==== Sys2Proof/Laws/Ops.lean ====
section
/-! SUPPORT. One lemma for each shared operation that says once everything it can do. -/

namespace Sys2Proof.Machine

/-- PUSH appends where there is room and raises OVF where there is none. -/
theorem pushByte_cases (b : Byte) (s : State) :
    (s.full = false ∧ pushByte b s = s.append b) ∨ (s.full = true ∧ pushByte b s = s.raiseOvf) := by
  unfold pushByte
  cases h : s.full <;> simp

/-- A valid window is emitted where OUT is empty and held where it is full. -/
theorem emitFrame_cases (g : Frame) (s : State) :
    (s.out = none ∧ emitFrame g s = ((s.load g).dropFront 11).stepReturns (.emit g)) ∨
      ((∃ f, s.out = some f) ∧ emitFrame g s = s.stepReturns .held) := by
  unfold emitFrame
  cases h : s.out <;> simp [Config.frameLen]

/-- STEP has four outcomes. -/
theorem scanStep_cases (s : State) :
    (s.buf.length < 11 ∧ scanStep s = s.stepReturns .idle) ∨
    (11 ≤ s.buf.length ∧ (∃ g f, decodeFrame (s.buf.take 11) = some g ∧ s.out = some f) ∧
      scanStep s = s.stepReturns .held) ∨
    (11 ≤ s.buf.length ∧ ∃ g, decodeFrame (s.buf.take 11) = some g ∧ s.out = none ∧
      scanStep s = ((s.load g).dropFront 11).stepReturns (.emit g)) ∨
    (11 ≤ s.buf.length ∧ decodeFrame (s.buf.take 11) = none ∧
      scanStep s = (s.dropFront 1).stepReturns (.drop (byteAt s.buf 0))) := by
  unfold scanStep
  simp only [State.bufLen, Config.frameLen, State.window_eq, windowFrame_eq_decodeFrame]
  split
  · exact .inl ⟨‹_›, rfl⟩
  · have hlen : 11 ≤ s.buf.length := by omega
    split
    · next g hg =>
      obtain ⟨ho, he⟩ | ⟨⟨f, ho⟩, he⟩ := emitFrame_cases g s
      · exact .inr (.inr (.inl ⟨hlen, g, hg, ho, he⟩))
      · exact .inr (.inl ⟨hlen, ⟨g, f, hg, ho⟩, he⟩)
    · next hg => exact .inr (.inr (.inr ⟨hlen, hg, rfl⟩))

/-- TAKE moves the frame in OUT to the consumer, or returns nothing. -/
theorem takeFrame_cases (s : State) :
    (∃ g, s.out = some g ∧ takeFrame s = ((s.logTaken g).clearOut).takeReturns (some g)) ∨
      (s.out = none ∧ takeFrame s = s.takeReturns none) := by
  unfold takeFrame
  cases h : s.out <;> simp

/-- A command is sent whole, or stops at the call that fails, or is not sent after an earlier failure. -/
theorem sendCfg_cases (c : CfgCmd) (l : Link) :
    ((∃ e, l.error = some e) ∧ sendCfg c l = l) ∨
    (l.error = none ∧ l.answer = false ∧ sendCfg c l = l.write (cfgBytes (cfgWord c))) ∨
    (l.error = none ∧ l.answer = true ∧ l.answers.tail.headD true = false ∧
      sendCfg c l = (l.write (cfgBytes (cfgWord c))).flush) ∨
    (l.error = none ∧ l.answer = true ∧ l.answers.tail.headD true = true ∧
      sendCfg c l = ((l.write (cfgBytes (cfgWord c))).flush).delay 100) := by
  rcases l with ⟨calls, answers, opens, reads, channel, error⟩
  cases error with
  | some e => left; simp [sendCfg, Link.andThen]
  | none =>
    rcases answers with _ | ⟨_ | _, _ | ⟨_ | _, rest⟩⟩ <;>
      simp [sendCfg, Link.andThen, Link.write, Link.flush, Link.delay, Link.answer, Config.commandDelayMs]

/-- A clock edge resets, or runs the cycle's TAKE if both sides are ready, then STEP, then PUSH if a byte is presented. -/
theorem clockEdge_cases (p : Pins) (s : State) :
    (p.rst = true ∧ clockEdge p s = resetBlock s) ∨
    (p.rst = false ∧ ∃ u, (u = s ∨ (p.outReady = true ∧ s.out.isSome ∧ u = takeFrame s)) ∧
      ((p.inValid = false ∧ clockEdge p s = scanStep u) ∨
       (p.inValid = true ∧ clockEdge p s = pushByte p.inData (scanStep u)))) := by
  unfold clockEdge
  cases hr : p.rst with
  | true => simp
  | false =>
    refine .inr ⟨rfl, edgeTake p s, ?_, ?_⟩
    · unfold edgeTake State.outValid
      cases ho : s.out.isSome <;> cases hy : p.outReady <;> simp
    · unfold edgePush
      cases p.inValid <;> simp

/-- DRAIN's body takes the frame in OUT, or steps. -/
theorem drainOnce_cases (s : State) :
    ((∃ g, s.out = some g) ∧ drainOnce s = takeFrame s) ∨ (s.out = none ∧ drainOnce s = scanStep s) := by
  unfold drainOnce State.outValid
  cases s.out <;> simp

/-- What a PORT_OP word runs, by its op field. -/
theorem exec_decodePort (w : PortWord) (s : State) :
    (portOpField w = 0 ∧ exec (decodePort w) s = .next (scanStep s)) ∨
    (portOpField w = 1 ∧ exec (decodePort w) s = .next (pushByte (portDataField w) s)) ∨
    (portOpField w = 2 ∧ exec (decodePort w) s = .next (takeFrame s)) ∨
    (portOpField w = 3 ∧ exec (decodePort w) s = .next (resetBlock s)) := by
  unfold decodePort
  generalize portOpField w = op
  have h : op = 0 ∨ op = 1 ∨ op = 2 ∨ op = 3 := by revert op; decide
  rcases h with rfl | rfl | rfl | rfl <;> simp [exec, execStep, execPush, execTake, execReset]

/-- What a listed configuration word runs. -/
theorem exec_decodeCfg {w : CfgWord} {i : Instr} (h : decodeCfg w = .ok i) (s : State) :
    ∃ c, w = cfgWord c ∧ exec i s = .next (s.withLink (sendCfg c s.link)) := by
  unfold decodeCfg at h
  split_ifs at h <;> simp only [Except.ok.injEq] at h <;> subst h
  · exact ⟨.protocolSelect, ‹_›, rfl⟩
  · exact ⟨.enableStreaming, ‹_›, rfl⟩
  · exact ⟨.disableAllChannels, ‹_›, rfl⟩
  · exact ⟨.enableAcceleration, ‹_›, rfl⟩
  · exact ⟨.enableGyroscope, ‹_›, rfl⟩
  · exact ⟨.enableAngle, ‹_›, rfl⟩
  · exact ⟨.setOutputRate, ‹_›, rfl⟩

/-- Everything a step that goes on can do: wait, run one atomic operation, one clock edge or one command. -/
theorem step_cases {s t : State} (h : step s = .next t) :
    (s.pending = [] ∧ t = s) ∨
    (∃ w rest, s.pending = .port w :: rest ∧
      ((portOpField w = 0 ∧ t = scanStep (s.withPending rest)) ∨
       (portOpField w = 1 ∧ t = pushByte (portDataField w) (s.withPending rest)) ∨
       (portOpField w = 2 ∧ t = takeFrame (s.withPending rest)) ∨
       (portOpField w = 3 ∧ t = resetBlock (s.withPending rest)))) ∨
    (∃ p rest, s.pending = .edge p :: rest ∧ t = clockEdge p (s.withPending rest)) ∨
    (∃ c rest, s.pending = .cfg (cfgWord c) :: rest ∧ t = (s.withPending rest).withLink (sendCfg c s.link)) := by
  unfold step State.fetch at h
  rcases hp : s.pending with _ | ⟨w | p | w, rest⟩ <;> simp only [hp] at h
  · exact .inl ⟨rfl, by simpa using h.symm⟩
  · refine .inr (.inl ⟨w, rest, rfl, ?_⟩)
    simp only [perform] at h
    rcases exec_decodePort w (s.withPending rest) with ⟨ho, he⟩ | ⟨ho, he⟩ | ⟨ho, he⟩ | ⟨ho, he⟩ <;>
      rw [he] at h <;> simp only [Host.Outcome.next.injEq] at h <;> simp [ho, h]
  · refine .inr (.inr (.inl ⟨p, rest, rfl, ?_⟩))
    simpa [perform] using h.symm
  · simp only [perform] at h
    split at h
    · next i hi =>
      obtain ⟨c, rfl, he⟩ := exec_decodeCfg hi (s.withPending rest)
      rw [he] at h
      exact .inr (.inr (.inr ⟨c, rest, rfl, by simpa using h.symm⟩))
    · cases h

end Sys2Proof.Machine
end

