-- ==== Sys2Proof/Laws/HostSoftware.lean ====
section
/-! SUPPORT. What the host software's functions can do, and what they leave alone. -/

namespace Sys2Proof.Machine

/-- PUSH does not touch the link. -/
@[simp] theorem pushByte_link (b : Byte) (s : State) : (pushByte b s).link = s.link := by
  obtain ⟨_, he⟩ | ⟨_, he⟩ := pushByte_cases b s <;> simp [he]

/-- PUSHN does not touch the link. -/
@[simp] theorem pushAll_link (bytes : List Byte) (s : State) : (pushAll bytes s).link = s.link := by
  induction bytes generalizing s with
  | nil => rfl
  | cons b bytes ih => exact (ih (pushByte b s)).trans (pushByte_link b s)

/-- Sending a command leaves the answers to open and read, and the channel. -/
theorem sendCfg_frame (c : CfgCmd) (l : Link) :
    (sendCfg c l).opens = l.opens ∧ (sendCfg c l).reads = l.reads ∧ (sendCfg c l).channel = l.channel := by
  obtain ⟨_, he⟩ | ⟨_, _, he⟩ | ⟨_, _, _, he⟩ | ⟨_, _, _, he⟩ := sendCfg_cases c l <;> simp [he]

/-- Sending commands leaves the answers to open and read, and the channel. -/
theorem sendAll_frame (cs : List CfgCmd) (l : Link) :
    (sendAll cs l).opens = l.opens ∧ (sendAll cs l).reads = l.reads ∧ (sendAll cs l).channel = l.channel := by
  induction cs generalizing l with
  | nil => exact ⟨rfl, rfl, rfl⟩
  | cons c cs ih =>
    obtain ⟨ho, hr, hc⟩ := sendCfg_frame c l
    obtain ⟨io, ir, ic⟩ := ih (sendCfg c l)
    exact ⟨io.trans ho, ir.trans hr, ic.trans hc⟩

/-- A read records its call, uses up its answer, and changes nothing else of the link. -/
@[simp] theorem receive_link (n : Nat) (s : State) : (receive n s).2.link = s.link.read n := by
  simp [receive]

/-- What the acceptance test looks at. -/
theorem acceptsProbe_iff (a : Config.BaudAccept) (bytes : List Byte) :
    acceptsProbe a bytes = true ↔ (a = .nonEmptyRead → bytes ≠ []) ∧ (a = .syncPresent → (0x55 : Byte) ∈ bytes) := by
  cases a <;> simp [acceptsProbe, Config.sync]

/-- The probe of a candidate rejects it at the open, fails at a command, or reads and tests. -/
theorem probe_cases (p : Config.HostParams) (path : String) (baud : Nat) (s : State) :
    ((∃ e, s.link.openAnswer = .failed e) ∧
      probe p path baud s = (.rejected, s.withLink (s.link.openAt path baud p.probeTimeoutMs))) ∨
    (s.link.openAnswer = .opened ∧
      ((∃ e, (sendAll p.probeCmds (s.link.openAt path baud p.probeTimeoutMs)).error = some e ∧
        probe p path baud s = (.failed e, s.withLink (sendAll p.probeCmds (s.link.openAt path baud p.probeTimeoutMs)))) ∨
      ((sendAll p.probeCmds (s.link.openAt path baud p.probeTimeoutMs)).error = none ∧
        probe p path baud s =
          probeRead p (s.withLink (sendAll p.probeCmds (s.link.openAt path baud p.probeTimeoutMs)))))) := by
  unfold probe
  cases s.link.openAnswer with
  | failed e => exact .inl ⟨⟨e, rfl⟩, rfl⟩
  | opened =>
    refine .inr ⟨rfl, ?_⟩
    cases h : (sendAll p.probeCmds (s.link.openAt path baud p.probeTimeoutMs)).error <;> simp [h]

/-- The channel of an accepted candidate is open at its rate. -/
theorem probe_accepted_channel {p : Config.HostParams} {path : String} {baud : Nat} {s t : State}
    (h : probe p path baud s = (.accepted, t)) : t.link.channel = some ⟨path, baud, p.probeTimeoutMs⟩ := by
  obtain ⟨_, he⟩ | ⟨ho, ⟨e, _, he⟩ | ⟨_, he⟩⟩ := probe_cases p path baud s
  · cases he.symm.trans h
  · cases he.symm.trans h
  · have ht : t = (probeRead p (s.withLink (sendAll p.probeCmds (s.link.openAt path baud p.probeTimeoutMs)))).2 := by
      rw [← he, h]
    simp [ht, probeRead, (sendAll_frame _ _).2.2, ho]

end Sys2Proof.Machine
end

