-- ==== Sys2Proof/Laws/PerInstr.lean ====
section
/-! SUPPORT. Statements for all instructions, one lemma for each constructor. -/

namespace Sys2Proof.Laws

/-- The encoding has the form of the instruction's format (30_encoding.md R90): 11 bytes of which the first is the sync
byte and the last the sum of the others, a port-operation word, or one of the seven literals. -/
def EncodingForm.Statement (i : Instr) : Prop :=
  match encode i with
  | .wire bytes => formatOf i = .wireFrame ∧ bytes.length = 11 ∧ byteAt bytes 0 = 0x55 ∧ checksum bytes = byteAt bytes 10
  | .port _ => formatOf i = .portOp
  | .cfg w => formatOf i = .cfgCmd ∧ w.extractLsb' 16 16 = 0xFFAA

/-- A frame made by ENCODE has the form of a wire frame. -/
theorem encodeFrame_form (id : Byte) (x y z t : I16) :
    (encodeFrame id x y z t).length = 11 ∧ byteAt (encodeFrame id x y z t) 0 = 0x55 ∧
      checksum (encodeFrame id x y z t) = byteAt (encodeFrame id x y z t) 10 := by
  refine ⟨rfl, rfl, ?_⟩
  simp [encodeFrame, frameBody, byteAt, checksum, sum12, Config.csumSpan]

theorem EncodingForm.frameAcc (x y z t : I16) : EncodingForm.Statement (.frameAcc x y z t) := ⟨rfl, encodeFrame_form _ _ _ _ _⟩
theorem EncodingForm.frameGyro (x y z t : I16) : EncodingForm.Statement (.frameGyro x y z t) := ⟨rfl, encodeFrame_form _ _ _ _ _⟩
theorem EncodingForm.frameAngle (x y z t : I16) : EncodingForm.Statement (.frameAngle x y z t) := ⟨rfl, encodeFrame_form _ _ _ _ _⟩
theorem EncodingForm.frameMag (x y z t : I16) : EncodingForm.Statement (.frameMag x y z t) := ⟨rfl, encodeFrame_form _ _ _ _ _⟩
theorem EncodingForm.frameUnknown (id : Byte) (x y z t : I16) : EncodingForm.Statement (.frameUnknown id x y z t) := ⟨rfl, encodeFrame_form _ _ _ _ _⟩
theorem EncodingForm.step : EncodingForm.Statement .step := rfl
theorem EncodingForm.push (b : Byte) : EncodingForm.Statement (.push b) := rfl
theorem EncodingForm.take : EncodingForm.Statement .take := rfl
theorem EncodingForm.reset : EncodingForm.Statement .reset := rfl
theorem EncodingForm.cfgProtocolSelect : EncodingForm.Statement .cfgProtocolSelect := ⟨rfl, by decide⟩
theorem EncodingForm.cfgEnableStreaming : EncodingForm.Statement .cfgEnableStreaming := ⟨rfl, by decide⟩
theorem EncodingForm.cfgDisableAllChannels : EncodingForm.Statement .cfgDisableAllChannels := ⟨rfl, by decide⟩
theorem EncodingForm.cfgEnableAcceleration : EncodingForm.Statement .cfgEnableAcceleration := ⟨rfl, by decide⟩
theorem EncodingForm.cfgEnableGyroscope : EncodingForm.Statement .cfgEnableGyroscope := ⟨rfl, by decide⟩
theorem EncodingForm.cfgEnableAngle : EncodingForm.Statement .cfgEnableAngle := ⟨rfl, by decide⟩
theorem EncodingForm.cfgSetOutputRate : EncodingForm.Statement .cfgSetOutputRate := ⟨rfl, by decide⟩

end Sys2Proof.Laws
end

