-- ==== Sys2Proof/Laws/Safety.lean ====
section
/-! SUPPORT. The capacity and the invariant in terms of numbers and fields. -/

namespace Sys2Proof.Machine

/-- FULL as a comparison with the capacity. -/
theorem State.full_eq_true_iff (s : State) : s.full = true ↔ ∃ n, bufCapLimit s.cap = some n ∧ n ≤ s.buf.length := by
  unfold State.full State.bufLen
  rcases bufCapLimit s.cap with _ | n <;> simp

/-- Not FULL as a comparison with the capacity. -/
theorem State.full_eq_false_iff (s : State) :
    s.full = false ↔ ∀ n, bufCapLimit s.cap = some n → s.buf.length < n := by
  unfold State.full State.bufLen
  rcases bufCapLimit s.cap with _ | n <;> simp

/-- No capacity is below 11 (00_scope.md R10). -/
theorem eleven_le_of_bufCapLimit {cap : Config.BufCap} {n : Nat} (h : bufCapLimit cap = some n) : 11 ≤ n := by
  cases cap <;> simp [bufCapLimit, Config.frameLen] at h
  omega

end Sys2Proof.Machine

namespace Sys2Proof.Safety

open Sys2Proof.Machine

/-- `withinCap` as a comparison. -/
theorem withinCap_iff (s : State) : withinCap s = true ↔ ∀ n, bufCapLimit s.cap = some n → s.buf.length ≤ n := by
  unfold withinCap State.bufLen
  rcases bufCapLimit s.cap with _ | n <;> simp

/-- `ovfNeedsCap` as an implication. -/
theorem ovfNeedsCap_iff (s : State) : ovfNeedsCap s = true ↔ (bufCapLimit s.cap = none → s.ovf = false) := by
  unfold ovfNeedsCap
  rcases bufCapLimit s.cap with _ | n <;> simp

/-- `framesCoherent` frame by frame. -/
theorem framesCoherent_iff (s : State) :
    framesCoherent s = true ↔ (∀ f, s.out = some f → f.coherent = true) ∧ ∀ f ∈ s.taken, f.coherent = true := by
  unfold framesCoherent
  cases s.out <;> simp

/-- A run of no step stays. -/
theorem runsTo_zero_iff (s t : State) : RunsTo 0 s t ↔ s = t :=
  ⟨fun h => Host.Outcome.next.inj h, fun h => congrArg Host.Outcome.next h⟩

/-- A run goes on by one step and the rest of the run. -/
theorem runsTo_succ_iff (n : Nat) (s t : State) : RunsTo (n + 1) s t ↔ ∃ u, StepsTo s u ∧ RunsTo n u t := by
  unfold RunsTo StepsTo
  rcases hs : step s with u | r | r
  · have hc : Host.Core.step Sys2Proof.core s = .next u := hs
    simp [Host.Core.run, hc]
  · have hc : Host.Core.step Sys2Proof.core s = .fault r := hs
    simp [Host.Core.run, hc]
  · have hc : Host.Core.step Sys2Proof.core s = .refused r := hs
    simp [Host.Core.run, hc]

end Sys2Proof.Safety
end

