-- ==== Sys2Proof/Tests/Slice0.lean ====
section
/-! SUPPORT. The tests: words written out from the spec's encodings, one-step tests with values from
spec/95_test_vectors.md, and for each statement with hypotheses a state and operands that meet them. -/

namespace Sys2Proof.Tests

open Sys2Proof.Machine Sys2Proof.Safety

/-! Helpers. The frames are the named frames of 95_test_vectors.md. -/

/-- FA0. -/
def fa0 : List Byte := [0x55, 0x51, 0x00, 0x00, 0x00, 0x00, 0x00, 0x00, 0x00, 0x00, 0xA6]

/-- FA1. -/
def fa1 : List Byte := [0x55, 0x51, 0xFF, 0x7F, 0x00, 0x80, 0xFF, 0xFF, 0x34, 0x12, 0xE8]

/-- FG. -/
def fg : List Byte := [0x55, 0x52, 0x10, 0x00, 0xF0, 0xFF, 0x00, 0x01, 0x00, 0x00, 0xA7]

/-- FN. -/
def fn : List Byte := [0x55, 0x53, 0x00, 0x40, 0x00, 0xC0, 0x01, 0x00, 0xFF, 0xFF, 0xA7]

/-- FM. -/
def fm : List Byte := [0x55, 0x54, 0x2C, 0x01, 0xD4, 0xFE, 0x00, 0x00, 0x10, 0x0A, 0xC2]

/-- FU55. -/
def fu55 : List Byte := [0x55, 0x55, 0x00, 0x00, 0x00, 0x00, 0x00, 0x00, 0x00, 0x00, 0xAA]

/-- The Frame of FA0. -/
def frameFa0 : Frame := ⟨.acceleration, 0x51, 0, 0, 0, 0⟩

/-- The Frame of FG: 16, -16, 256, 0. -/
def frameFg : Frame := ⟨.gyroscope, 0x52, 0x0010, 0xFFF0, 0x0100, 0x0000⟩

/-- The Frame of FN: 16384, -16384, 1, -1. -/
def frameFn : Frame := ⟨.angle, 0x53, 0x4000, 0xC000, 0x0001, 0xFFFF⟩

/-- The Frame of FM: 300, -300, 0, 2576. -/
def frameFm : Frame := ⟨.magnetic, 0x54, 0x012C, 0xFED4, 0x0000, 0x0A10⟩

/-- A block of capacity `cap` with the triple (BUF, OUT, OVF). -/
def block (cap : Config.BufCap) (buf : List Byte) (out : Option Frame) (ovf : Bool) : State :=
  { State.resetWith cap with buf := buf, out := out, ovf := ovf }

/-- The unbounded block with this buffer and this output register. -/
def unbounded (buf : List Byte) (out : Option Frame) : State := block .unbounded buf out false

/-- The next state, where there is one. -/
def nextOf (o : Host.Outcome State Fault Refusal) : Option State :=
  match o with
  | .next t => some t
  | .fault _ => none
  | .refused _ => none

/-- The triple (BUF, OUT, OVF) of the next state. -/
def tripleAfter (o : Host.Outcome State Fault Refusal) : Option (List Byte × Option Frame × Bool) :=
  (nextOf o).map fun t => (t.buf, t.out, t.ovf)

/-! WellFormed: the one check, on the four ids it refuses and the ids beside them. -/

theorem test_wellFormed_refuses_known_ids :
    ¬ WellFormed (.frameUnknown 0x51 0 0 0 0) ∧ ¬ WellFormed (.frameUnknown 0x52 0 0 0 0) ∧
    ¬ WellFormed (.frameUnknown 0x53 0 0 0 0) ∧ ¬ WellFormed (.frameUnknown 0x54 0 0 0 0) := by decide

theorem test_wellFormed_accepts_other_ids :
    WellFormed (.frameUnknown 0x50 0 0 0 0) ∧ WellFormed (.frameUnknown 0x55 0 0 0 0) ∧
    WellFormed (.frameUnknown 0x00 0 0 0 0) ∧ WellFormed (.frameUnknown 0xFF 0 0 0 0) := by decide

/-! Decoding, one word for each constructor, the words written out from 30_encoding.md R91, R111 and R114. -/

theorem test_decode_frameAcc : decode (.wire fa1) = .ok (.frameAcc 0x7FFF 0x8000 0xFFFF 0x1234) := by rfl
theorem test_decode_frameGyro : decode (.wire fg) = .ok (.frameGyro 0x0010 0xFFF0 0x0100 0x0000) := by rfl
theorem test_decode_frameAngle : decode (.wire fn) = .ok (.frameAngle 0x4000 0xC000 0x0001 0xFFFF) := by rfl
theorem test_decode_frameMag : decode (.wire fm) = .ok (.frameMag 0x012C 0xFED4 0x0000 0x0A10) := by rfl
theorem test_decode_frameUnknown : decode (.wire fu55) = .ok (.frameUnknown 0x55 0 0 0 0) := by rfl
theorem test_decode_step : decode (.port 0x000) = .ok .step ∧ decode (.port 0x0FF) = .ok .step := ⟨rfl, rfl⟩
theorem test_decode_push : decode (.port 0x155) = .ok (.push 0x55) ∧ decode (.port 0x1FF) = .ok (.push 0xFF) := ⟨rfl, rfl⟩
theorem test_decode_take : decode (.port 0x200) = .ok .take ∧ decode (.port 0x2A5) = .ok .take := ⟨rfl, rfl⟩
theorem test_decode_reset : decode (.port 0x300) = .ok .reset ∧ decode (.port 0x3FF) = .ok .reset := ⟨rfl, rfl⟩
theorem test_decode_cfgProtocolSelect : decode (.cfg 0xFFAA0300) = .ok .cfgProtocolSelect := by rfl
theorem test_decode_cfgEnableStreaming : decode (.cfg 0xFFAA2700) = .ok .cfgEnableStreaming := by rfl
theorem test_decode_cfgDisableAllChannels : decode (.cfg 0xFFAA0200) = .ok .cfgDisableAllChannels := by rfl
theorem test_decode_cfgEnableAcceleration : decode (.cfg 0xFFAA0201) = .ok .cfgEnableAcceleration := by rfl
theorem test_decode_cfgEnableGyroscope : decode (.cfg 0xFFAA0204) = .ok .cfgEnableGyroscope := by rfl
theorem test_decode_cfgEnableAngle : decode (.cfg 0xFFAA0208) = .ok .cfgEnableAngle := by rfl
theorem test_decode_cfgSetOutputRate : decode (.cfg 0xFFAA0308) = .ok .cfgSetOutputRate := by rfl

/-- 95_test_vectors.md W1: 10 bytes, 12 bytes, none, a wrong sync, a wrong checksum, eleven zeros. -/
theorem test_decode_rejections :
    decodeFrame (fa0.take 10) = none ∧ decodeFrame (fa0 ++ [0]) = none ∧ decodeFrame [] = none ∧
    decodeFrame [0x54, 0x51, 0, 0, 0, 0, 0, 0, 0, 0, 0xA5] = none ∧
    decodeFrame [0x55, 0x51, 0, 0, 0, 0, 0, 0, 0, 0, 0xA7] = none ∧
    decodeFrame (List.replicate 11 0) = none := by decide

/-- 95_test_vectors.md, CHECKSUM: FA1, the largest sum, eleven 0x55. -/
theorem test_checksum_vectors :
    sum12 fa1 = 0x4E8 ∧ checksum fa1 = 0xE8 ∧ sum12 (List.replicate 10 0xFF) = 0x9F6 ∧
    checksum (List.replicate 10 0xFF) = 0xF6 ∧ checksum (List.replicate 10 0x55) = 0x52 := by decide

/-- 95_test_vectors.md, LE16. -/
theorem test_le16_vectors :
    (le16 0xFF 0x7F).toInt = 32767 ∧ (le16 0x00 0x80).toInt = -32768 ∧ (le16 0xD4 0xFE).toInt = -300 ∧
    (le16 0x7F 0xFF).toInt = -129 := by decide

/-- 95_test_vectors.md W2: ENCODE(0x51, 1, 2, 3, 4). -/
theorem test_encode_vector :
    encode (.frameAcc 1 2 3 4) = .wire [0x55, 0x51, 0x01, 0x00, 0x02, 0x00, 0x03, 0x00, 0x04, 0x00, 0xB0] := by decide

/-- 95_test_vectors.md, PACK: FA1, FG, FM and the Unknown frame of the false sync. -/
theorem test_pack_vectors :
    pack ⟨.acceleration, 0x51, 0x7FFF, 0x8000, 0xFFFF, 0x1234⟩ = 0x0511234FFFF80007FFF ∧
    pack frameFg = 0x15200000100FFF00010 ∧ pack frameFm = 0x3540A100000FED4012C ∧
    pack ⟨.unknown 0x55, 0x55, 81, 0, 0, 1280⟩ = 0x4550500000000000051 := by decide

/-- 95_test_vectors.md: UNPACK refuses kind codes 5 to 7; 30_encoding.md R105. -/
theorem test_unpack_refuses_reserved_kinds :
    unpack 0x5000000000000000000 = none ∧ unpack 0x6000000000000000000 = none ∧
    unpack 0x7FFFFFFFFFFFFFFFFFF = none ∧ (unpack 0x4FFFFFFFFFFFFFFFFFF).isSome = true := by decide

/-- 60_exceptions.md R249: a capacity below 11 is refused. -/
theorem test_capacity_below_eleven_refused :
    bufCapOfNat 10 = none ∧ bufCapOfNat 11 = some (.fifo 0) ∧ bufCapLimit (.fifo 0) = some 11 := by decide

/-! One step of each instruction. The values are those of the tables PUSH, STEP, TAKE and RESET of 95_test_vectors.md. -/

theorem test_push_appends : tripleAfter (exec (.push 0x00) (unbounded [0x55, 0x51] none))
    = some ([0x55, 0x51, 0x00], none, false) := by decide
theorem test_push_full_sets_ovf : tripleAfter (exec (.push 0x00) (block (.fifo 0) fa0 none false))
    = some (fa0, none, true) := by decide
theorem test_step_drops_with_out_full : tripleAfter (exec .step (unbounded (0x01 :: fa0) (some frameFg)))
    = some (fa0, some frameFg, false) := by decide
theorem test_step_bad_checksum_drops_one :
    tripleAfter (exec .step (unbounded [0x55, 0x51, 0xFF, 0x7F, 0x00, 0x80, 0xFF, 0xFF, 0x34, 0x12, 0xE9] none))
    = some ([0x51, 0xFF, 0x7F, 0x00, 0x80, 0xFF, 0xFF, 0x34, 0x12, 0xE9], none, false) := by decide
theorem test_take_returns_the_frame : ((nextOf (exec .take (unbounded [0x01] (some frameFn)))).map
    fun t => (t.buf, t.out, t.taken, t.lastTake)) = some ([0x01], none, [frameFn], some (some frameFn)) := by decide
theorem test_take_empty_returns_none : ((nextOf (exec .take (unbounded [0x01] none))).map
    fun t => (t.buf, t.out, t.taken, t.lastTake)) = some ([0x01], none, [], some none) := by decide
theorem test_reset_clears : tripleAfter (exec .reset (block (.fifo 0) [0x55, 0x51, 0x00] (some frameFg) true))
    = some ([], none, false) := by decide

/-- The rows as the STEP that finds them runs them: 95_test_vectors.md, STEP and DECODE tables. -/
theorem test_frameAcc_emits : tripleAfter (exec .step (unbounded (fa0 ++ [0x01]) none))
    = some ([0x01], some frameFa0, false) := by decide
theorem test_frameGyro_emits : tripleAfter (exec .step (unbounded fg none)) = some ([], some frameFg, false) := by decide
theorem test_frameAngle_emits : tripleAfter (exec .step (unbounded fn none)) = some ([], some frameFn, false) := by decide
theorem test_frameMag_emits : tripleAfter (exec .step (unbounded fm none)) = some ([], some frameFm, false) := by decide
theorem test_frameUnknown_emits : tripleAfter (exec .step (unbounded fu55 none))
    = some ([], some ⟨.unknown 0x55, 0x55, 0, 0, 0, 0⟩, false) := by decide

/-- 95_test_vectors.md W7: four bytes, a flush and a wait for each command. -/
theorem test_cfg_calls : ([Instr.cfgProtocolSelect, .cfgEnableStreaming, .cfgDisableAllChannels, .cfgEnableAcceleration,
      .cfgEnableGyroscope, .cfgEnableAngle, .cfgSetOutputRate].map
      fun i => (nextOf (exec i State.reset)).map fun t => t.link.calls)
    = [[(0xFF : Byte), 0xAA, 0x03, 0x00], [0xFF, 0xAA, 0x27, 0x00], [0xFF, 0xAA, 0x02, 0x00], [0xFF, 0xAA, 0x02, 0x01],
        [0xFF, 0xAA, 0x02, 0x04], [0xFF, 0xAA, 0x02, 0x08], [0xFF, 0xAA, 0x03, 0x08]].map
      fun bytes => some [.write bytes true, .flush true, .delay 100] := by decide

/-- 95_test_vectors.md, trace T3, cycle 13: TAKE, STEP IDLE and PUSH in one cycle. -/
theorem test_clock_edge_t3_cycle13 :
    let t := clockEdge ⟨false, true, 0x52, true⟩ (block (.fifo 0) [0x55] (some frameFa0) false)
    (t.buf, t.out, t.ovf, t.taken) = ([0x55, 0x52], none, false, [frameFa0]) := by decide

/-- 95_test_vectors.md E10 and 70_reset_and_hazards.md R276: a false sync swallows ten bytes of the real frame FR. -/
theorem test_extract_false_sync :
    extract [0x55, 0x55, 0x51, 0, 0, 0, 0, 0, 0, 0x05, 0x00, 0xAB] = ([⟨.unknown 0x55, 0x55, 81, 0, 0, 1280⟩], [0xAB]) := by
  decide

/-- 95_test_vectors.md W6: acceleration 32767, gyroscope -32768. -/
theorem test_scaler_vectors :
    scaleAxis 16 0x7FFF = 1599951171875 / 100000000000 ∧ scaleAxis 2000 0x8000 = -2000 ∧ scaleAxis 180 0 = 0 := by
  have h1 : (0x7FFF : I16).toInt = 32767 := by decide
  have h2 : (0x8000 : I16).toInt = -32768 := by decide
  have h3 : (0 : I16).toInt = 0 := by decide
  refine ⟨?_, ?_, ?_⟩ <;> norm_num [scaleAxis, h1, h2, h3]

/-- The parameters of the host software, with a probe of one command. -/
def params (a : Config.BaudAccept) : Config.HostParams := ⟨a, [.enableStreaming], 32, 200, 64, 50⟩

/-- A state whose link will answer opens and reads so. -/
def answering (opens : List OpenAnswer) (reads : List ReadAnswer) : State :=
  State.reset.withLink { Link.fresh with opens := opens, reads := reads }

/-- 95_test_vectors.md W8: only candidate 6 returns data, under both acceptance tests; its byte is pushed. -/
theorem test_detect_vector (a : Config.BaudAccept) :
    let r := detectBaud (params a) "port" (answering [] (List.replicate 6 .timeout ++ [.data [0x55]]))
    (r.1, r.2.link.channel, r.2.buf) = (.found 115200, some ⟨"port", 115200, 200⟩, [0x55]) := by cases a <;> decide

/-- 45_boundary_software.md R211, R221, R223: a device that is not listed; a failing open at a given rate; a read that fails
in the main loop, after one that returns a whole frame. -/
theorem test_process_ends :
    (runProcess (params .nonEmptyRead) ⟨["other"], "port", none, false⟩ [false] State.reset)
      = ([], .setupFailed .deviceNotFound, State.reset) ∧
    (runProcess (params .nonEmptyRead) ⟨["port"], "port", some 9600, false⟩ [false] (answering [.failed .ioError] [])).2.1
      = .setupFailed (.transport (.openFailed .ioError)) ∧
    (let r := runProcess (params .nonEmptyRead) ⟨["port"], "port", some 9600, true⟩ [false, false, false]
        (answering [] [.data fu55, .ioError]);
      (r.1, r.2.1)) = ([.scaled (.unchanged ⟨.unknown 0x55, 0x55, 0, 0, 0, 0⟩)], .transportFailed .readFailed) := by decide

/-- The host's two questions, on words of the table: FRAME_MAG's header, PUSH, a command. -/
theorem test_table_words :
    decodeTableWord 16 0x5455 = some (.frameMag 0 0 0 0) ∧ decodeTableWord 16 0x0100 = some (.push 0) ∧
    decodeTableWord 32 0xFFAA0208 = some .cfgEnableAngle ∧
    tripleAfter (step (State.reset.withFetchWord 16 0x5455)) = some ([], some ⟨.magnetic, 0x54, 0, 0, 0, 0⟩, false) := by
  decide

/-! Witnesses: for each statement with hypotheses, data that meets them all together. -/

theorem witness_EncodeThenDecodeGivesTheInstrBack :
    WellFormed (.frameUnknown 0x55 0xFFFF 0 1 0x8000) ∧ WellFormed (.push 0xFF) ∧ WellFormed .cfgSetOutputRate := by decide
theorem witness_WireDecodingLosesNoBit : decodeWire fm = .ok (.frameMag 0x012C 0xFED4 0x0000 0x0A10) := by rfl
theorem witness_ChecksumIsTheLowByteOfTheByteSum : 10 ≤ (List.replicate 10 (0xFF : Byte)).length ∧ 10 ≤ fa1.length := by decide
theorem witness_WrappingAdderGivesTheChecksum : (fa1.take 10).Perm (fa1.take 10).reverse :=
  (List.reverse_perm _).symm
theorem witness_FrameTypesDecodeByTheirTypeId :
    (∀ w ∈ [fa1, fg, fn, fm, fu55], w.length = 11 ∧ byteAt w 0 = 0x55 ∧ byteAt w 10 = checksum w) ∧
    byteAt fa1 1 = 0x51 ∧ byteAt fg 1 = 0x52 ∧ byteAt fn 1 = 0x53 ∧ byteAt fm 1 = 0x54 ∧
    byteAt fu55 1 ∉ [(0x51 : Byte), 0x52, 0x53, 0x54] ∧
    (unbounded fm none).buf.take 11 = fm ∧ (unbounded fm none).out = none := by decide
theorem witness_ClassifyIsTheTypeIdMap :
    (0x50 : Byte) ∉ [(0x51 : Byte), 0x52, 0x53, 0x54] ∧ (0x55 : Byte) ∉ [(0x51 : Byte), 0x52, 0x53, 0x54] := by decide
theorem witness_SingleBitErrorsAreRejected : decodeFrame fm = some frameFm ∧ 0 < 11 ∧ 10 < 11 ∧ 0 < 8 ∧ 7 < 8 := by decide

/-- 95_test_vectors.md, undetected corruption of FA1: compensating errors, then swapped bytes. -/
theorem witness_CompensatingErrorsAreAccepted :
    let sums := fun w : List Byte => (((w.drop 1).take 9).map BitVec.toNat).sum % 256
    let shifted : List Byte := [0x55, 0x51, 0xFE, 0x7F, 0x01, 0x80, 0xFF, 0xFF, 0x34, 0x12, 0xE8]
    let swapped : List Byte := [0x55, 0x51, 0x7F, 0xFF, 0x00, 0x80, 0xFF, 0xFF, 0x34, 0x12, 0xE8]
    (decodeFrame fa1).isSome = true ∧
    (shifted.length = 11 ∧ byteAt shifted 0 = 0x55 ∧ byteAt shifted 10 = byteAt fa1 10 ∧ sums shifted = sums fa1) ∧
    (swapped.length = 11 ∧ byteAt swapped 0 = 0x55 ∧ byteAt swapped 10 = byteAt fa1 10 ∧
      ((swapped.drop 1).take 9).Perm ((fa1.drop 1).take 9)) := by decide
theorem witness_UnpackInvertsPack : decodeFrame fn = some frameFn := by decide
theorem witness_UnpackRefusesTheReservedKinds :
    (0x5000000000000000000 : BusWord).extractLsb' 72 3 ∈ [(5 : BitVec 3), 6, 7] ∧
    (0x4000000000000000000 : BusWord).extractLsb' 72 3 ∉ [(5 : BitVec 3), 6, 7] := by decide
theorem witness_PackPutsTheFieldsInTheirBits :
    frameFa0.kind = .acceleration ∧ frameFg.kind = .gyroscope ∧ frameFn.kind = .angle ∧ frameFm.kind = .magnetic ∧
    (Frame.mk (.unknown 0x55) 0x55 0 0 0 0).kind = .unknown 0x55 := by decide
theorem witness_PortsReadTheState : (unbounded [] (some frameFg)).out = some frameFg := by decide

/-- The three clauses of PUSH: no capacity; one byte short of it; at it. -/
theorem witness_PushAppendsOrSetsOvf :
    bufCapLimit (unbounded fa0 none).cap = none ∧
    (bufCapLimit (block (.fifo 0) (fa0.take 10) none false).cap = some 11 ∧
      (block (.fifo 0) (fa0.take 10) none false).buf.length < 11) ∧
    (bufCapLimit (block (.fifo 0) fa0 none false).cap = some 11 ∧ (block (.fifo 0) fa0 none false).buf.length = 11) := by
  decide

/-- The four cases of STEP, the first and the last at their boundary lengths 10 and 11. -/
theorem witness_StepFollowsItsFourCases :
    (unbounded (fa0.take 10) none).buf.length < 11 ∧
    (11 ≤ fa0.length ∧ decodeFrame ((unbounded fa0 none).buf.take 11) = some frameFa0 ∧ (unbounded fa0 none).out = none) ∧
    (decodeFrame ((unbounded fa0 (some frameFg)).buf.take 11) = some frameFa0 ∧
      (unbounded fa0 (some frameFg)).out = some frameFg) ∧
    ((unbounded (List.replicate 11 0x55) none).buf = 0x55 :: List.replicate 10 0x55 ∧
      11 ≤ (unbounded (List.replicate 11 0x55) none).buf.length ∧
      decodeFrame ((unbounded (List.replicate 11 0x55) none).buf.take 11) = none) := by decide
theorem witness_StepReturnsExactlyOneOutcome : nextOf (exec .step (unbounded fa0 none))
    = some { unbounded [] (some frameFa0) with lastStep := some (.emit frameFa0) } := by decide
theorem witness_TakeMovesTheFrameToTheConsumer :
    (unbounded fa0 (some frameFg)).out = some frameFg ∧ (unbounded fa0 (some frameFg)).out.isSome = true ∧
    decodeFrame ((unbounded fa0 (some frameFg)).buf.take 11) = some frameFa0 ∧
    nextOf (exec .take (unbounded fa0 (some frameFg)))
      = some { unbounded fa0 none with taken := [frameFg], lastTake := some (some frameFg) } ∧
    (unbounded fa0 none).out = none := by decide
theorem witness_ResetEmptiesTheBlock : State.reset.buf = [] ∧ State.reset.out = none ∧ State.reset.ovf = false := by decide
theorem witness_RstCycleIsResetFromEveryState : (Pins.mk true true 0xFF true).rst = true := by decide
theorem witness_FrameRowsEmitWhenOutIsEmpty : (unbounded fg none).out = none := by decide
theorem witness_FrameRowsAreHeldWhileOutIsFull : (unbounded fg (some frameFa0)).out.isSome = true := by decide
theorem witness_StepExecutesTheFrameAtTheFront :
    decodeWire ((unbounded (fg ++ [0x01]) none).buf.take 11) = .ok (.frameGyro 0x0010 0xFFF0 0x0100 0x0000) := by rfl
theorem witness_ConfigCommandsWriteFlushAndWait :
    State.reset.link.error = none ∧ State.reset.link.answers.headD true = true ∧
    State.reset.link.answers.tail.headD true = true := by decide

/-- A state in which the sequence has ended; one whose next write fails; one whose next flush fails. -/
theorem witness_ConfigFailureEndsTheSequence :
    let after := fun (answers : List Bool) (e : Option TransportError) =>
      State.reset.withLink { Link.fresh with answers := answers, error := e }
    (after [] (some .flushFailed)).link.error = some .flushFailed ∧
    ((after [false] none).link.error = none ∧ (after [false] none).link.answers.headD true = false) ∧
    ((after [true, false] none).link.error = none ∧ (after [true, false] none).link.answers.headD true = true ∧
      (after [true, false] none).link.answers.tail.headD true = false) := by decide
theorem witness_HandshakeSendsTheSevenLiteralsInOrder :
    Link.fresh.error = none ∧ ∀ a ∈ Link.fresh.answers, a = true := by decide
theorem witness_SentCommandsAreNotUndone : ({ Link.fresh with error := some .writeFailed } : Link).error.isSome = true := by decide

/-- The requests of the machine statements, in one state each. -/
def asked (r : Request) (s : State) : State := s.withPending [r]

theorem witness_ConfigCommandsDoNotTouchTheBlock :
    (asked (.cfg 0xFFAA0300) (unbounded fa0 (some frameFg))).pending = [.cfg 0xFFAA0300] ∧
    (nextOf (step (asked (.cfg 0xFFAA0300) (unbounded fa0 (some frameFg))))).isSome = true := by decide
theorem witness_StepRunsTheDecodedRequest :
    (asked (.port 0x0FF) (unbounded fg none)).pending = [.port 0x0FF] ∧ decodePort 0x0FF = .step ∧
    decodeWire ((unbounded fg none).buf.take 11) = .ok (.frameGyro 0x0010 0xFFF0 0x0100 0x0000) ∧
    (asked (.cfg 0xFFAA0208) State.reset).pending = [.cfg 0xFFAA0208] ∧ decodeCfg 0xFFAA0208 = .ok .cfgEnableAngle ∧
    (asked (.cfg 0xFFAA0209) State.reset).pending = [.cfg 0xFFAA0209] ∧ decodeCfg 0xFFAA0209 = .error .unlistedCommand ∧
    (asked (.edge ⟨false, true, 0, true⟩) State.reset).pending = [.edge ⟨false, true, 0, true⟩] ∧
    State.reset.pending = [] := ⟨rfl, rfl, rfl, rfl, rfl, rfl, rfl, rfl, rfl⟩
theorem witness_EveryStepKeepsTheInvariant :
    BlockInv (asked (.port 0x100) (block (.fifo 0) fa0 (some frameFg) false)) ∧
    StepsTo (asked (.port 0x100) (block (.fifo 0) fa0 (some frameFg) false)) (block (.fifo 0) fa0 (some frameFg) true) :=
  ⟨⟨by decide, by decide, by decide⟩, rfl⟩
theorem witness_ResetStateIsTheTable : exec .reset (unbounded fa0 (some frameFg)) = .next (unbounded [] none) := by rfl
theorem witness_BlockOperationsAlwaysGoOn :
    (asked (.port 0x3FF) State.reset).pending = [.port 0x3FF] ∧
    (asked (.edge ⟨true, false, 0, false⟩) State.reset).pending = [.edge ⟨true, false, 0, false⟩] := by decide

/-- OVF raised by a byte presented to a full block, and cleared by a reset. -/
theorem witness_OvfIsSticky :
    StepsTo (asked (.port 0x100) (block (.fifo 0) fa0 none false)) (block (.fifo 0) fa0 none true) ∧
    StepsTo (asked (.port 0x300) (block (.fifo 0) fa0 none true)) (block (.fifo 0) [] none false) := ⟨rfl, rfl⟩
theorem witness_BufChangesOnlyAtItsEnds :
    (asked (.port 0x1AB) (unbounded fa0 none)).pending = [.port 0x1AB] ∧
    StepsTo (asked (.port 0x1AB) (unbounded fa0 none)) (unbounded (fa0 ++ [0xAB]) none) := ⟨rfl, rfl⟩
theorem witness_OutIsNeverOverwritten :
    (asked (.port 0x300) (unbounded fa0 (some frameFg))).out = some frameFg ∧
    StepsTo (asked (.port 0x300) (unbounded fa0 (some frameFg))) (unbounded [] none) := ⟨rfl, rfl⟩
theorem witness_EmittedFramesComeFromTheFront :
    StepsTo (asked (.port 0x000) (unbounded fa0 none))
      { unbounded [] (some frameFa0) with lastStep := some (.emit frameFa0) } ∧
    (unbounded [] (some frameFa0)).out = some frameFa0 := ⟨rfl, rfl⟩
theorem witness_TakenOnlyGrowsByTheFrameInOut :
    StepsTo (asked (.port 0x200) (unbounded [] (some frameFa0)))
      { unbounded [] none with taken := [frameFa0], lastTake := some (some frameFa0) } := by rfl
theorem witness_TailIsRetained :
    (asked (.port 0x000) (unbounded (fa0.take 10) none)).pending = [.port 0x000] ∧ (Request.port 0x000).resets = false ∧
    (Request.port 0x000).pushed = [] ∧ (asked (.port 0x000) (unbounded (fa0.take 10) none)).buf.length < 11 ∧
    StepsTo (asked (.port 0x000) (unbounded (fa0.take 10) none))
      { unbounded (fa0.take 10) none with lastStep := some .idle } := ⟨rfl, rfl, rfl, by decide, rfl⟩
theorem witness_ExtractFollowsItsRecursion :
    (fa0.take 10).length < 11 ∧ (11 ≤ fa0.length ∧ decodeFrame (fa0.take 11) = some frameFa0) ∧
    (11 ≤ (0x01 :: fa0).length ∧ decodeFrame ((0x01 :: fa0).take 11) = none) := by decide

/-- 95_test_vectors.md E2, E3 and E8. -/
theorem witness_TailIsAShortSuffix :
    (List.replicate 10 (0x55 : Byte)).length ≤ 10 ∧
    ((extract (List.replicate 11 0x55)).1 = [] ∧ 11 ≤ (List.replicate 11 (0x55 : Byte)).length) ∧
    (extract ([0x01, 0x02, 0x03] ++ fa0 ++ fg ++ [0x10])).1 = [frameFa0] ++ [frameFg] := by decide

/-- 95_test_vectors.md W4. -/
theorem witness_ResynchronizationFindsTheNextFrame :
    (∀ b ∈ [(0x01 : Byte), 0x02, 0x03], b ≠ 0x55) ∧ decodeFrame fa0 = some frameFa0 ∧
    [(0x55 : Byte), 0x00, 0x00, 0x00].length ≤ 10 := by decide
theorem witness_ConcatenatedFramesAreAllFound :
    ∀ p ∈ [(fa0, frameFa0), (fg, frameFg)], decodeFrame p.1 = some p.2 := by decide
theorem witness_DrainEqualsExtract : (unbounded ([0x01, 0x02, 0x03] ++ fg ++ [0x55, 0x51]) none).out = none := by decide
theorem witness_DrainEndsWithinItsBound :
    (unbounded fa0 none).out = none ∧ (unbounded (fa0.take 10) none).buf.length < 11 ∧
    2 * ((unbounded fa0 none).buf.length - 10) ≤ 2 := by decide

/-- A run of one PUSH and one clock edge that pushes, from a reset state of the smallest capacity. -/
theorem witness_FramesDoNotDependOnTheInterleaving :
    let rs : List Request := [.port 0x155, .edge ⟨false, true, 0x51, true⟩]
    (∀ r ∈ rs, r.resets = false) ∧
    RunsTo rs.length (presenting rs (State.resetWith (.fifo 0)))
      { block (.fifo 0) [0x55, 0x51] none false with lastStep := some .idle } ∧
    (block (.fifo 0) [0x55, 0x51] none false).ovf = false := ⟨by decide, rfl, rfl⟩
theorem witness_ChunkingDoesNotMatter : (unbounded fa0 none).cap = .unbounded ∧ (unbounded fa0 none).out = none := by decide

/-- TAKE or no TAKE, PUSH or no PUSH, and reset. -/
theorem witness_ClockEdgeRunsTakeStepPush :
    ((unbounded fa0 (some frameFg)).out.isSome = true ∧ (Pins.mk false true 0x55 true).outReady = true ∧
      (Pins.mk false true 0x55 true).inValid = true ∧ (Pins.mk false true 0x55 true).rst = false) ∧
    (Pins.mk false false 0 false).inValid = false ∧ (Pins.mk true true 0x55 true).rst = true := by decide
theorem witness_ReadyConsumerNeverOverflows :
    (∀ p ∈ [Pins.mk false true 0x01 true, Pins.mk false true 0x55 true], p.outReady = true) ∧
    (block (.fifo 0) fa0 none false).buf.length ≤ 11 ∧ (block (.fifo 0) fa0 none false).ovf = false := by decide

/-- 95_test_vectors.md, trace T1, cycles 10 and 11, and trace T3, cycles 11 and 12. -/
theorem witness_FrameIsVisibleTwoCyclesAfterItsLastByte :
    decodeFrame ((block (.fifo 0) (fa0.take 10) none false).buf ++ [0xA6]) = some frameFa0 ∧
    (let s := block (.fifo 0) (0x01 :: fa0.take 10) none false;
      s.buf.length = 11 ∧ decodeFrame s.buf = none ∧ decodeFrame (s.buf.drop 1 ++ [0xA6]) = some frameFa0) ∧
    (Pins.mk false true 0xA6 true).rst = false ∧ (Pins.mk false true 0xA6 true).inValid = true ∧
    (Pins.mk false true 0xA6 true).outReady = true ∧ (Pins.mk false true 0x55 true).rst = false ∧
    (Pins.mk false true 0x55 true).outReady = true := by decide

/-- 95_test_vectors.md, trace T2, cycle 22, with one byte of room more. -/
theorem witness_StalledConsumerLeadsToOverflow :
    (block (.fifo 1) fg (some frameFa0) false).out = some frameFa0 ∧
    decodeFrame ((block (.fifo 1) fg (some frameFa0) false).buf.take 11) = some frameFg ∧
    bufCapLimit (block (.fifo 1) fg (some frameFa0) false).cap = some 12 ∧
    (block (.fifo 1) fg (some frameFa0) false).buf.length + [(0x00 : Byte)].length = 12 := by decide
theorem witness_ScalerFollowsItsFormula :
    frameFa0.kind = .acceleration ∧ frameFg.kind = .gyroscope ∧ frameFn.kind = .angle ∧ frameFm.kind = .magnetic ∧
    (Frame.mk (.unknown 0x55) 0x55 0 0 0 0).kind = .unknown 0x55 := by decide

/-- A candidate that cannot be opened, one whose read fails, one that times out and one that is accepted; all rejected; and
the hypotheses on one probe, with bytes that pass one test and not the other. -/
theorem witness_DetectReturnsTheFirstAcceptedRate :
    (let r := detectFrom (params .nonEmptyRead) "port" [2400, 4800, 9600, 19200]
        (answering [.failed .notFound] [.ioError, .timeout, .data [0x01]]);
      (r.1, r.2.link.channel)) = (.found 19200, some ⟨"port", 19200, 200⟩) ∧
    (detectFrom (params .syncPresent) "port" [2400] (answering [] [.data [0x01]])).1 = .exhausted ∧
    (answering [.failed .notFound] []).link.opens.headD .opened = .failed .notFound ∧
    (let s := answering [] [.data [0x01]];
      s.link.opens.headD .opened = .opened ∧
      (sendAll (params .nonEmptyRead).probeCmds (s.link.openAt "port" 2400 200)).error = none ∧
      s.link.reads.headD .timeout = .data [0x01]) := by decide

/-- Success at the third read, and no success after an I/O error or at a fourth: both sides of the equivalence; and after
a success at the first read, no other read. -/
theorem witness_VerifyLooksAtThreeReads :
    (verifyDevice 64 (answering [] [.timeout, .data [0x01], .data [0x00, 0x55]])).1 = true ∧
    (verifyDevice 64 (answering [] [.ioError, .data [0x55]])).1 = false ∧
    (verifyDevice 64 (answering [] [.timeout, .timeout, .timeout, .data [0x55]])).1 = false ∧
    (verifyDevice 64 (answering [] [.data [0x55], .data [0x01]])).2.link.calls = [.read 64 (.data [0x55])] := by decide

end Sys2Proof.Tests
end

namespace Sys2Proof.Machine

/-! The output ports as functions of the state (10_state.md R45). -/

@[simp] theorem ports_outValid (n : Nat) (s : State) : (ports n s).outValid = s.out.isSome := rfl

@[simp] theorem ports_ovf (n : Nat) (s : State) : (ports n s).ovf = s.ovf := rfl

/-- The cycle's index matters only while OUT is empty: a frame in OUT is what out_frame shows. -/
theorem ports_outFrame_of_out_eq_some (n : Nat) {s : State} {f : Frame} (h : s.out = some f) :
    (ports n s).outFrame = pack f := by
  simp only [ports, h]

/-- Settles O19: one rule for each port. -/
theorem portsReadTheState : Obligations.PortsReadTheState := fun n s =>
  ⟨ports_outValid n s, ports_ovf n s, fun _ hout => ports_outFrame_of_out_eq_some n hout⟩

/-! RESET and the initial state (10_state.md R47). -/

@[simp] theorem exec_reset (s : State) : exec .reset s = .next (resetBlock s) := rfl

/-- RESET always answers, and with one state only. -/
theorem exec_reset_eq_next_iff {s t : State} : exec .reset s = .next t ↔ t = resetBlock s := by
  rw [exec_reset, Host.Outcome.next.injEq, eq_comm]

/-- Settles O37: RESET leaves `resetBlock s`, and the initial state is `resetWith` of the unbounded capacity; both have the
fields of the table. -/
theorem resetStateIsTheTable : Obligations.ResetStateIsTheTable := by
  refine ⟨fun s t hreset => ?_, State.resetWith_buf .unbounded, State.resetWith_out .unbounded,
    State.resetWith_ovf .unbounded⟩
  obtain rfl := exec_reset_eq_next_iff.1 hreset
  exact ⟨resetBlock_buf s, resetBlock_out s, resetBlock_ovf s⟩

end Sys2Proof.Machine

namespace Sys2Proof.Machine

/-! The frame bus: what PACK puts where, and what UNPACK reads back (30_encoding.md R103 to R106). -/

/-- Bits above the low part of a concatenation are bits of its high part. -/
theorem extractLsb'_append_add {v w : Nat} (hi : BitVec v) (lo : BitVec w) (start len : Nat) :
    (hi ++ lo).extractLsb' (start + w) len = hi.extractLsb' start len := by
  rw [BitVec.extractLsb'_append_eq_of_le (Nat.le_add_left w start), Nat.add_sub_cancel]

/-! Each field of PACK is reached past the fields below it. -/

@[simp] theorem pack_xBits (f : Frame) : (pack f).extractLsb' 0 16 = f.x :=
  BitVec.extractLsb'_append_eq_right

@[simp] theorem pack_yBits (f : Frame) : (pack f).extractLsb' 16 16 = f.y :=
  (extractLsb'_append_add _ f.x 0 16).trans BitVec.extractLsb'_append_eq_right

@[simp] theorem pack_zBits (f : Frame) : (pack f).extractLsb' 32 16 = f.z :=
  (extractLsb'_append_add _ f.x 16 16).trans <| (extractLsb'_append_add _ f.y 0 16).trans
    BitVec.extractLsb'_append_eq_right

/-- Past the three axes, PACK is the kind code, the type id and the T field. -/
theorem pack_extractLsb'_add_48 (f : Frame) (start len : Nat) :
    (pack f).extractLsb' (start + 48) len = (kindCode f.kind ++ f.typeId ++ f.t).extractLsb' start len :=
  (extractLsb'_append_add _ f.x (start + 32) len).trans <|
    (extractLsb'_append_add _ f.y (start + 16) len).trans <| extractLsb'_append_add _ f.z start len

@[simp] theorem pack_tBits (f : Frame) : (pack f).extractLsb' 48 16 = f.t :=
  (pack_extractLsb'_add_48 f 0 16).trans BitVec.extractLsb'_append_eq_right

@[simp] theorem pack_typeIdBits (f : Frame) : (pack f).extractLsb' 64 8 = f.typeId :=
  (pack_extractLsb'_add_48 f 16 8).trans <| (extractLsb'_append_add _ f.t 0 8).trans
    BitVec.extractLsb'_append_eq_right

@[simp] theorem pack_kindBits (f : Frame) : (pack f).extractLsb' 72 3 = kindCode f.kind :=
  (pack_extractLsb'_add_48 f 24 3).trans <| (extractLsb'_append_add _ f.t 8 3).trans
    BitVec.extractLsb'_append_eq_left

/-- The reserved kind codes are the code of no variant. -/
theorem kindCode_not_reserved (k : FrameType) : kindCode k ∉ [(5 : BitVec 3), 6, 7] := by
  cases k <;> simp [kindCode]

/-- A kind that CLASSIFY selects is recovered from its code and the type id. -/
theorem kindOfCode_kindCode_classify (id : Byte) :
    kindOfCode (kindCode (classify id)) id = some (classify id) := by
  unfold classify
  split_ifs <;> rfl

/-- UNPACK after PACK keeps every field but the kind, which it reads from the kind code and the type id. -/
theorem unpack_pack (f : Frame) :
    unpack (pack f) = (kindOfCode (kindCode f.kind) f.typeId).map fun k => { f with kind := k } := by
  simp [unpack]

/-- A Frame is coherent when CLASSIFY selects its kind. -/
theorem Frame.coherent_iff (f : Frame) : f.coherent = true ↔ f.kind = classify f.typeId := by
  simp [Frame.coherent]

/-- UNPACK gives back every coherent Frame. -/
theorem unpack_pack_of_coherent {f : Frame} (h : f.coherent = true) : unpack (pack f) = some f := by
  have hkind := f.coherent_iff.1 h
  rw [unpack_pack, hkind, kindOfCode_kindCode_classify, ← hkind, Option.map_some]

/-- Settles O17: DECODE yields coherent Frames only, and coherence is what the round trip and the kind bits turn on. -/
theorem unpackInvertsPack : Obligations.UnpackInvertsPack := fun w f hdecode => by
  have hcoherent := coherent_of_decodeFrame hdecode
  refine ⟨unpack_pack_of_coherent hcoherent, ?_⟩
  rw [pack_kindBits, pack_typeIdBits, f.coherent_iff.1 hcoherent]

/-- Settles O16: one rule for each field of the bus, and the code of each variant. -/
theorem packPutsTheFieldsInTheirBits : Obligations.PackPutsTheFieldsInTheirBits := fun f =>
  ⟨pack_kindBits f, pack_typeIdBits f, pack_tBits f, pack_zBits f, pack_yBits f, pack_xBits f,
    ⟨congrArg kindCode, congrArg kindCode, congrArg kindCode, congrArg kindCode, fun _ => congrArg kindCode⟩,
    kindCode_not_reserved f.kind⟩

/-! DRAIN's loop (30_encoding.md R116), by a measure that every operation of it lowers. -/

theorem State.scanReady_eq_false_iff (s : State) : s.scanReady = false ↔ s.buf.length < 11 :=
  decide_eq_false_iff_not.trans not_le

/-- DRAIN's loop stops where no window is left and OUT is empty. -/
theorem State.drainable_eq_false_iff (s : State) :
    s.drainable = false ↔ s.buf.length < 11 ∧ s.out = none := by
  rw [State.drainable, Bool.or_eq_false_iff, s.scanReady_eq_false_iff, State.outValid, Option.isSome_eq_false_iff,
    Option.isNone_iff_eq_none]

/-- How many operations DRAIN needs at most: two for each byte that can still begin a window, and the TAKE of the frame
in OUT. -/
def State.drainCost (s : State) : Nat := 2 * (s.buf.length - 10) + s.out.toList.length

theorem State.drainCost_of_out_eq_none {s : State} (h : s.out = none) : s.drainCost = 2 * (s.buf.length - 10) := by
  simp [State.drainCost, h]

theorem State.drainCost_of_out_eq_some {s : State} {g : Frame} (h : s.out = some g) :
    s.drainCost = 2 * (s.buf.length - 10) + 1 := by
  simp [State.drainCost, h]

/-- The bound DRAIN carries covers its cost. -/
theorem State.drainCost_le (s : State) : s.drainCost ≤ 2 * s.bufLen + 1 := by
  unfold State.bufLen
  cases hout : s.out with
  | none => rw [s.drainCost_of_out_eq_none hout]; omega
  | some g => rw [s.drainCost_of_out_eq_some hout]; omega

/-- Where DRAIN goes on, its cost is not used up. -/
theorem State.drainable_eq_false_of_drainCost_eq_zero {s : State} (h : s.drainCost = 0) : s.drainable = false := by
  rw [State.drainable_eq_false_iff]
  cases hout : s.out with
  | none => exact ⟨by rw [s.drainCost_of_out_eq_none hout] at h; omega, rfl⟩
  | some g => rw [s.drainCost_of_out_eq_some hout] at h; omega

/-- Each operation of DRAIN lowers its cost: a TAKE by the frame in OUT, a DROP by its byte, and an EMIT by its bytes,
of which one alone outweighs the TAKE to come. -/
theorem drainCost_drainOnce_lt {s : State} (h : s.drainable = true) : (drainOnce s).drainCost < s.drainCost := by
  obtain ⟨⟨g, hout⟩, honce⟩ | ⟨hout, honce⟩ := drainOnce_cases s
  · obtain ⟨f, -, htake⟩ | ⟨hnone, -⟩ := takeFrame_cases s
    · rw [s.drainCost_of_out_eq_some hout, honce, htake, State.drainCost_of_out_eq_none (by simp)]
      simp
    · simp [hout] at hnone
  · have hlen : ¬ s.buf.length < 11 := fun hshort => by
      simp [s.drainable_eq_false_iff.2 ⟨hshort, hout⟩] at h
    rw [s.drainCost_of_out_eq_none hout, honce]
    obtain ⟨hshort, -⟩ | ⟨-, ⟨g, f, -, hfull⟩, -⟩ | ⟨-, g, -, -, hemit⟩ | ⟨-, -, hdrop⟩ := scanStep_cases s
    · exact absurd hshort hlen
    · simp [hout] at hfull
    · simp [hemit, State.drainCost]
      omega
    · simp [hdrop, State.drainCost, hout]
      omega

/-- No bound makes DRAIN's loop go on where it stops. -/
theorem drainFuel_of_not_drainable {s : State} (h : s.drainable = false) (fuel : Nat) : drainFuel fuel s = s := by
  cases fuel <;> simp [drainFuel, h]

theorem drainFuel_succ_of_drainable {s : State} (h : s.drainable = true) (fuel : Nat) :
    drainFuel (fuel + 1) s = drainFuel fuel (drainOnce s) := by
  simp [drainFuel, h]

/-- A bound that covers the cost lets DRAIN's loop run to its end. -/
theorem drainFuel_not_drainable {fuel : Nat} {s : State} (h : s.drainCost ≤ fuel) :
    (drainFuel fuel s).drainable = false := by
  induction fuel generalizing s with
  | zero => exact State.drainable_eq_false_of_drainCost_eq_zero (Nat.le_zero.1 h)
  | succ fuel ih =>
    cases hgo : s.drainable with
    | false => rwa [drainFuel_of_not_drainable hgo]
    | true =>
      have hlt := drainCost_drainOnce_lt hgo
      rw [drainFuel_succ_of_drainable hgo]
      exact ih (by omega)

/-- Bounds add up. -/
theorem drainFuel_add (m n : Nat) (s : State) : drainFuel (m + n) s = drainFuel n (drainFuel m s) := by
  induction m generalizing s with
  | zero => rw [Nat.zero_add, drainFuel]
  | succ m ih =>
    cases hgo : s.drainable with
    | false => simp only [drainFuel_of_not_drainable hgo]
    | true => rw [Nat.add_right_comm, drainFuel_succ_of_drainable hgo, drainFuel_succ_of_drainable hgo, ih]

/-- Every bound that covers the cost gives the same state. -/
theorem drainFuel_eq_of_drainCost_le {fuel : Nat} {s : State} (h : s.drainCost ≤ fuel) :
    drainFuel fuel s = drainFuel s.drainCost s := by
  obtain ⟨extra, rfl⟩ := Nat.exists_eq_add_of_le h
  rw [drainFuel_add, drainFuel_of_not_drainable (drainFuel_not_drainable le_rfl)]

/-- DRAIN is its loop under any bound that covers the cost. -/
theorem drainFuel_eq_drain {fuel : Nat} {s : State} (h : s.drainCost ≤ fuel) : drainFuel fuel s = drain s :=
  (drainFuel_eq_of_drainCost_le h).trans (drainFuel_eq_of_drainCost_le s.drainCost_le).symm

/-- Settles O50: the cost of DRAIN from an empty OUT is the bound of R116, and a bound that covers the cost is enough. -/
theorem drainEndsWithinItsBound : Obligations.DrainEndsWithinItsBound := by
  refine fun s hout => ⟨fun hshort => s.drainable_eq_false_iff.2 ⟨hshort, hout⟩, fun fuel hfuel => ?_⟩
  have hcost : s.drainCost ≤ fuel := by rwa [State.drainCost_of_out_eq_none hout]
  exact ⟨drainFuel_not_drainable hcost, drainFuel_eq_drain hcost⟩

/-- Settles O9: the valid frames are those to which DECODE gives a Frame, whatever its fields. -/
theorem decodeAcceptsExactlyTheValidFrames : Obligations.DecodeAcceptsExactlyTheValidFrames := fun w => by
  rw [Option.isSome_iff_exists]
  constructor
  · rintro ⟨g, hdecode⟩
    obtain ⟨hlen, hsync, hsum, -⟩ := decodeFrame_eq_some_iff.1 hdecode
    exact ⟨hlen, hsync, hsum.symm⟩
  · rintro ⟨hlen, hsync, hsum⟩
    exact ⟨_, decodeFrame_eq_some_iff.2 ⟨hlen, hsync, hsum.symm, rfl⟩⟩

end Sys2Proof.Machine

namespace Sys2Proof

/-! The PORT_OP words: their two fields, and what the op field selects (30_encoding.md R110 to R112). -/

@[simp] theorem portOpField_portWord (op : BitVec 2) (data : Byte) : portOpField (portWord op data) = op :=
  BitVec.extractLsb'_append_eq_left

@[simp] theorem portDataField_portWord (op : BitVec 2) (data : Byte) : portDataField (portWord op data) = data :=
  BitVec.extractLsb'_append_eq_right

/-- The two fields are all of a PORT_OP word. -/
theorem portWord_portOpField_portDataField (w : PortWord) : portWord (portOpField w) (portDataField w) = w :=
  BitVec.extractLsb'_append_extractLsb'

theorem decodePort_portWord_zero (data : Byte) : decodePort (portWord 0 data) = .step := by
  simp [decodePort]

theorem decodePort_portWord_one (data : Byte) : decodePort (portWord 1 data) = .push data := by
  simp [decodePort]

theorem decodePort_portWord_two (data : Byte) : decodePort (portWord 2 data) = .take := by
  simp [decodePort]

theorem decodePort_portWord_three (data : Byte) : decodePort (portWord 3 data) = .reset := by
  simp [decodePort]

/-- A PORT_OP word as the number `op * 256 + data`. -/
theorem portWord_toNat (op : BitVec 2) (data : Byte) : (portWord op data).toNat = op.toNat * 256 + data.toNat := by
  rw [portWord, BitVec.toNat_append, ← Nat.shiftLeft_add_eq_or_of_lt data.isLt, Nat.shiftLeft_eq]

/-- The canonical words of PUSH are 0x100 to 0x1FF. -/
theorem portWord_one (b : Byte) : portWord 1 b = BitVec.ofNat 10 (0x100 + b.toNat) := by
  have hnat : (portWord 1 b).toNat = 0x100 + b.toNat := portWord_toNat 1 b
  rw [← hnat, BitVec.ofNat_toNat, BitVec.setWidth_eq]

/-- Settles O3: a word is its op and data fields, and `decodePort` reads the data field for PUSH alone. -/
theorem portWordsAllDecodeByTheirOpField : Obligations.PortWordsAllDecodeByTheirOpField :=
  ⟨fun w => ⟨_, _, (portWord_portOpField_portDataField w).symm⟩,
    fun data => ⟨decodePort_portWord_zero data, decodePort_portWord_one data, decodePort_portWord_two data,
      decodePort_portWord_three data⟩,
    rfl, fun b => congrArg RawWord.port (portWord_one b), rfl, rfl⟩

end Sys2Proof

namespace Sys2Proof

/-! The checksum as a sum of bytes modulo 256 (40_frame_decoder.md R130, R131). -/

/-- The 8-bit wrapping sum keeps the low byte of the natural sum. -/
theorem toNat_sum_bytes (bs : List Byte) : bs.sum.toNat = (bs.map BitVec.toNat).sum % 256 := by
  induction bs with
  | nil => rfl
  | cons b bs ih => rw [List.sum_cons, BitVec.toNat_add, ih, List.map_cons, List.sum_cons, Nat.add_mod_mod]

/-- Two byte sequences have the same wrapping sum when their natural sums agree modulo 256. -/
theorem sum_bytes_eq_of_mod_eq {bs cs : List Byte}
    (h : (bs.map BitVec.toNat).sum % 256 = (cs.map BitVec.toNat).sum % 256) : bs.sum = cs.sum :=
  BitVec.eq_of_toNat_eq (by rw [toNat_sum_bytes, toNat_sum_bytes, h])

/-- No byte exceeds 255, so `n` bytes sum to at most `n * 255`. -/
theorem sum_map_toNat_le (bs : List Byte) : (bs.map BitVec.toNat).sum ≤ bs.length * 255 := by
  simpa using List.sum_le_card_nsmul (bs.map BitVec.toNat) 255 (by simpa using fun b _ => Nat.le_of_lt_succ b.isLt)

/-- The 12-bit accumulator adds modulo 4096. -/
theorem toNat_foldl_setWidth (bs : List Byte) (acc : Sum12) :
    (bs.foldl (fun s b => s + b.setWidth 12) acc).toNat = (acc.toNat + (bs.map BitVec.toNat).sum) % 4096 := by
  induction bs generalizing acc with
  | nil => exact (Nat.mod_eq_of_lt acc.isLt).symm
  | cons b bs ih =>
    have hwiden : (b.setWidth 12).toNat = b.toNat := BitVec.toNat_setWidth_of_le (by decide)
    rw [List.foldl_cons, ih, BitVec.toNat_add, hwiden, Nat.mod_add_mod, List.map_cons, List.sum_cons, Nat.add_assoc]

/-- At most ten bytes are added, whatever the length of the sequence. -/
theorem sum_map_toNat_take_le (w : List Byte) : ((w.take 10).map BitVec.toNat).sum ≤ 2550 :=
  (sum_map_toNat_le (w.take 10)).trans (Nat.mul_le_mul_right 255 (List.length_take_le 10 w))

/-- The 12-bit accumulator holds the natural sum: it never overflows. -/
theorem sum12_toNat (w : List Byte) : (sum12 w).toNat = ((w.take 10).map BitVec.toNat).sum := by
  have hmod : (sum12 w).toNat = (0 + ((w.take 10).map BitVec.toNat).sum) % 4096 := toNat_foldl_setWidth (w.take 10) 0
  have hle := sum_map_toNat_take_le w
  omega

theorem checksum_toNat (w : List Byte) : (checksum w).toNat = ((w.take 10).map BitVec.toNat).sum % 256 := by
  rw [checksum, BitVec.extractLsb'_toNat, Nat.shiftRight_zero, sum12_toNat]

/-- CHECKSUM is the wrapping sum of the bytes at offsets 0 to 9. -/
theorem checksum_eq_sum (w : List Byte) : checksum w = (w.take 10).sum :=
  BitVec.eq_of_toNat_eq (by rw [checksum_toNat, toNat_sum_bytes])

/-- Settles O6: the 12-bit accumulator holds the natural sum, and CHECKSUM is its low byte. -/
theorem checksumIsTheLowByteOfTheByteSum : Obligations.ChecksumIsTheLowByteOfTheByteSum := fun w _ =>
  ⟨sum12_toNat w, (sum12_toNat w).trans_le (sum_map_toNat_take_le w), checksum_toNat w⟩

/-- Settles O7: wrapping addition is commutative and associative, so the sum of a list of bytes depends neither on their
order nor on the side from which they are folded. -/
theorem wrappingAdderGivesTheChecksum : Obligations.WrappingAdderGivesTheChecksum := fun w v hperm => by
  have hsum : v.sum = checksum w := by rw [checksum_eq_sum, hperm.sum_eq]
  exact ⟨List.sum_eq_foldl.symm.trans hsum, hsum⟩

/-! A byte sequence with one byte changed. -/

theorem byteAt_set_self {w : List Byte} {k : Nat} (hk : k < w.length) (b : Byte) : byteAt (w.set k b) k = b := by
  simp [byteAt, hk]

theorem byteAt_set_of_ne {k n : Nat} (hne : k ≠ n) (w : List Byte) (b : Byte) :
    byteAt (w.set k b) n = byteAt w n := by
  simp [byteAt, hne]

/-- A change at offsets 0 to 9 shifts the checksum by the difference of the two bytes. -/
theorem checksum_set_of_lt {w : List Byte} {k : Nat} (hspan : k < 10) (hk : k < w.length) (b : Byte) :
    checksum (w.set k b) = checksum w + (-byteAt w k + b) := by
  have hlen : k < (w.take 10).length := by rw [List.length_take]; omega
  rw [checksum_eq_sum, checksum_eq_sum, List.take_set, List.sum_set', dif_pos hlen]
  simp [byteAt, hk]

/-- The checksum does not read past offset 9. -/
theorem checksum_set_of_ge {k : Nat} (hspan : 10 ≤ k) (w : List Byte) (b : Byte) :
    checksum (w.set k b) = checksum w := by
  rw [checksum_eq_sum, checksum_eq_sum, List.take_set_of_le hspan]

/-- The checksum is the byte at offset 0 plus the sum of those at offsets 1 to 9. -/
theorem checksum_eq_head_add (w : List Byte) : checksum w = byteAt w 0 + ((w.drop 1).take 9).sum := by
  rw [checksum_eq_sum]
  cases w with
  | nil => rfl
  | cons b rest => exact List.sum_cons

/-- Flipping a bit of a byte changes it. -/
theorem xor_shiftLeft_one_ne (b : Byte) {j : Nat} (hj : j < 8) : b ^^^ (1#8 <<< j) ≠ b := fun h => by
  have hbit : (b ^^^ (1#8 <<< j)).getLsbD j = b.getLsbD j := by rw [h]
  simp [hj] at hbit

/-! ENCODE (40_frame_decoder.md R146). -/

/-- The two bytes of a field assemble to the field. -/
@[simp] theorem le16_loByte_hiByte (v : I16) : le16 (loByte v) (hiByte v) = v :=
  BitVec.extractLsb'_append_extractLsb'

end Sys2Proof

namespace Sys2Proof.Machine

/-! CLASSIFY (40_frame_decoder.md R134). -/

theorem classify_of_notMem {id : Byte} (h : id ∉ [(0x51 : Byte), 0x52, 0x53, 0x54]) : classify id = .unknown id := by
  simp only [List.mem_cons, List.not_mem_nil, or_false, not_or] at h
  obtain ⟨hacc, hgyro, hangle, hmag⟩ := h
  rw [classify, if_neg hacc, if_neg hgyro, if_neg hangle, if_neg hmag]

/-- Settles O11: the four listed ids by evaluation, every other one past the four tests. -/
theorem classifyIsTheTypeIdMap : Obligations.ClassifyIsTheTypeIdMap :=
  ⟨rfl, rfl, rfl, rfl, fun _ => classify_of_notMem⟩

/-! DECODE of changed and of encoded frames. -/

/-- One wrong byte in a valid frame is always noticed: in offsets 0 to 9 it changes the checksum and not the byte it is
compared with, at offset 10 the other way round. -/
theorem decodeFrame_set_eq_none {w : List Byte} {g : Frame} (hdecode : decodeFrame w = some g) {k : Nat} (hk : k < 11)
    {b : Byte} (hb : b ≠ byteAt w k) : decodeFrame (w.set k b) = none := by
  obtain ⟨hlen, -, hsum, -⟩ := decodeFrame_eq_some_iff.1 hdecode
  have hkw : k < w.length := hlen ▸ hk
  refine Option.eq_none_iff_forall_ne_some.2 fun f haccept => hb ?_
  obtain ⟨-, -, hsum', -⟩ := decodeFrame_eq_some_iff.1 haccept
  obtain hspan | rfl : k < 10 ∨ k = 10 := by omega
  · rw [checksum_set_of_lt hspan hkw, byteAt_set_of_ne hspan.ne, hsum, add_eq_left] at hsum'
    exact (neg_add_eq_zero.1 hsum').symm
  · rw [checksum_set_of_ge le_rfl, byteAt_set_self hkw, hsum] at hsum'
    exact hsum'.symm

/-- Settles O13: a flipped bit is a wrong byte. -/
theorem singleBitErrorsAreRejected : Obligations.SingleBitErrorsAreRejected := fun w _ hdecode k hk _ hj =>
  decodeFrame_set_eq_none hdecode hk (xor_shiftLeft_one_ne (byteAt w k) hj)

/-- Settles O14: both kinds of change keep the wrapping sum of offsets 1 to 9, hence the checksum. -/
theorem compensatingErrorsAreAccepted : Obligations.CompensatingErrorsAreAccepted := by
  intro w v g hdecode hlen hsync hsame hchange
  obtain ⟨-, hsyncW, hsumW, -⟩ := decodeFrame_eq_some_iff.1 hdecode
  have hinner : ((v.drop 1).take 9).sum = ((w.drop 1).take 9).sum :=
    hchange.elim sum_bytes_eq_of_mod_eq List.Perm.sum_eq
  have hsumV : checksum v = byteAt v 10 := by
    rw [checksum_eq_head_add, hinner, hsync, ← hsyncW, ← checksum_eq_head_add, hsumW, hsame]
  exact ⟨_, decodeFrame_eq_some_iff.2 ⟨hlen, hsync, hsumV, rfl⟩⟩

/-- DECODE of ENCODE gives back the fields. -/
theorem decodeFrame_encodeFrame (id : Byte) (x y z t : I16) :
    decodeFrame (encodeFrame id x y z t) = some ⟨classify id, id, x, y, z, t⟩ := by
  obtain ⟨hlen, hsync, hsum⟩ := Laws.encodeFrame_form id x y z t
  refine decodeFrame_eq_some_iff.2 ⟨hlen, hsync, hsum, ?_⟩
  simp [encodeFrame, frameBody, byteAt, fieldX, fieldY, fieldZ, fieldT]

/-- Settles O12: the body is written out by the definition, the last byte is the checksum by the form of an encoding. -/
theorem decodeOfEncodeGivesTheFields : Obligations.DecodeOfEncodeGivesTheFields := fun id x y z t => by
  obtain ⟨-, -, hsum⟩ := Laws.encodeFrame_form id x y z t
  exact ⟨⟨_, rfl, hsum.symm⟩, decodeFrame_encodeFrame id x y z t⟩

/-! Emission (40_frame_decoder.md R139 to R143, 41_stream_reassembler.md R163). -/

theorem emitFrame_of_out_eq_none {s : State} (hout : s.out = none) (g : Frame) :
    emitFrame g s = ((s.load g).dropFront 11).stepReturns (.emit g) := by
  obtain ⟨-, hemit⟩ | ⟨⟨f, hfull⟩, -⟩ := emitFrame_cases g s
  · exact hemit
  · simp [hout] at hfull

/-- A row that stands for a Frame emits that Frame. -/
theorem exec_of_frameOf {i : Instr} {g : Frame} (h : frameOf i = some g) (s : State) :
    exec i s = .next (emitFrame g s) := by
  cases i with
  | frameAcc x y z t => cases h; rfl
  | frameGyro x y z t => cases h; rfl
  | frameAngle x y z t => cases h; rfl
  | frameMag x y z t => cases h; rfl
  | frameUnknown id x y z t => cases h; rfl
  | _ => cases h

theorem exec_of_frameOf_of_out_eq_none {i : Instr} {g : Frame} (h : frameOf i = some g) {s : State}
    (hout : s.out = none) : exec i s = .next (((s.load g).dropFront 11).stepReturns (.emit g)) := by
  rw [exec_of_frameOf h, emitFrame_of_out_eq_none hout]

/-- Settles O26: each of the five rows stands for the Frame it is said to emit. -/
theorem frameRowsEmitWhenOutIsEmpty : Obligations.FrameRowsEmitWhenOutIsEmpty := fun _ _ _ _ _ hout =>
  ⟨exec_of_frameOf_of_out_eq_none rfl hout, exec_of_frameOf_of_out_eq_none rfl hout,
    exec_of_frameOf_of_out_eq_none rfl hout, exec_of_frameOf_of_out_eq_none rfl hout,
    fun _ => exec_of_frameOf_of_out_eq_none rfl hout⟩

/-- A STEP that finds a valid frame at the front emits it where OUT is empty. -/
theorem scanStep_of_decodeFrame {s : State} {g : Frame} (hdecode : decodeFrame (s.buf.take 11) = some g)
    (hout : s.out = none) : scanStep s = ((s.load g).dropFront 11).stepReturns (.emit g) := by
  obtain ⟨hshort, -⟩ | ⟨-, ⟨_, f, -, hfull⟩, -⟩ | ⟨-, f, hfront, -, hemit⟩ | ⟨-, hinvalid, -⟩ := scanStep_cases s
  · have hlen := length_of_decodeFrame hdecode
    rw [List.length_take] at hlen
    omega
  · simp [hout] at hfull
  · obtain rfl : f = g := Option.some.inj (hfront.symm.trans hdecode)
    exact hemit
  · simp [hdecode] at hinvalid

/-- DECODE of a valid window whose type id selects `k`. -/
theorem decodeFrame_of_classify {w : List Byte} {k : FrameType} (hlen : w.length = 11) (hsync : byteAt w 0 = 0x55)
    (hsum : byteAt w 10 = checksum w) (hkind : classify (byteAt w 1) = k) :
    decodeFrame w = some ⟨k, byteAt w 1, fieldX w, fieldY w, fieldZ w, fieldT w⟩ :=
  decodeFrame_eq_some_iff.2 ⟨hlen, hsync, hsum.symm, by rw [hkind]⟩

/-- Settles O10: DECODE of a valid window by what CLASSIFY makes of its type id, then the STEP that emits it. -/
theorem frameTypesDecodeByTheirTypeId : Obligations.FrameTypesDecodeByTheirTypeId := by
  intro w hlen hsync hsum
  have hdecode {k : FrameType} := decodeFrame_of_classify (k := k) hlen hsync hsum
  refine ⟨fun hid => hdecode (hid ▸ rfl), fun hid => hdecode (hid ▸ rfl), fun hid => hdecode (hid ▸ rfl),
    fun hid => hdecode (hid ▸ rfl), fun hid => hdecode (classify_of_notMem hid), ?_⟩
  rintro s rfl hout
  exact ⟨_, _, congrArg Host.Outcome.next (scanStep_of_decodeFrame (hdecode rfl) hout), hdecode rfl, rfl, rfl⟩

end Sys2Proof.Machine

namespace Sys2Proof.Machine

/-! The atomic operations as the PORT_OP rows run them: each always answers, with one state (10_state.md R46). -/

@[simp] theorem exec_step (s : State) : exec .step s = .next (scanStep s) := rfl
@[simp] theorem exec_push (b : Byte) (s : State) : exec (.push b) s = .next (pushByte b s) := rfl
@[simp] theorem exec_take (s : State) : exec .take s = .next (takeFrame s) := rfl

theorem exec_step_eq_next_iff {s t : State} : exec .step s = .next t ↔ t = scanStep s := by
  rw [exec_step, Host.Outcome.next.injEq, eq_comm]

theorem exec_push_eq_next_iff {b : Byte} {s t : State} : exec (.push b) s = .next t ↔ t = pushByte b s := by
  rw [exec_push, Host.Outcome.next.injEq, eq_comm]

theorem exec_take_eq_next_iff {s t : State} : exec .take s = .next t ↔ t = takeFrame s := by
  rw [exec_take, Host.Outcome.next.injEq, eq_comm]

/-! PUSH: its two cases, and what it leaves (41_stream_reassembler.md R160, R161). -/

theorem pushByte_of_full {s : State} (h : s.full = true) (b : Byte) : pushByte b s = s.raiseOvf := if_pos h

theorem pushByte_of_not_full {s : State} (h : s.full = false) (b : Byte) : pushByte b s = s.append b := by
  simp [pushByte, h]

/-- Fewer than 11 bytes leave room for one more, whatever the capacity. -/
theorem pushByte_of_length_lt {s : State} (h : s.buf.length < 11) (b : Byte) : pushByte b s = s.append b :=
  pushByte_of_not_full (s.full_eq_false_iff.2 fun _ hcap => h.trans_le (eleven_le_of_bufCapLimit hcap)) b

@[simp] theorem pushByte_frame (b : Byte) (s : State) :
    (pushByte b s).out = s.out ∧ (pushByte b s).cap = s.cap ∧ (pushByte b s).taken = s.taken ∧
      (pushByte b s).lastStep = s.lastStep ∧ (pushByte b s).pending = s.pending := by
  obtain ⟨-, he⟩ | ⟨-, he⟩ := pushByte_cases b s <;> simp [he]

/-- PUSH adds at most its byte to BUF. -/
theorem pushByte_buf_cases (b : Byte) (s : State) :
    (pushByte b s).buf = s.buf ++ [b] ∨ (pushByte b s).buf = s.buf := by
  obtain ⟨-, he⟩ | ⟨-, he⟩ := pushByte_cases b s <;> simp [he]

/-- A PUSH that leaves OVF clear has appended its byte, and found OVF clear. -/
theorem pushByte_of_ovf_eq_false {b : Byte} {s : State} (h : (pushByte b s).ovf = false) :
    s.ovf = false ∧ pushByte b s = s.append b := by
  obtain ⟨-, he⟩ | ⟨-, he⟩ := pushByte_cases b s
  · exact ⟨by simpa [he] using h, he⟩
  · simp [he] at h

/-! STEP: its four cases by their conditions, and what it leaves (41_stream_reassembler.md R163). -/

theorem decodeFrame_of_length_lt {w : List Byte} (h : w.length < 11) : decodeFrame w = none :=
  Option.eq_none_iff_forall_ne_some.2 fun _ hdecode => h.ne (length_of_decodeFrame hdecode)

/-- A window that DECODE accepts is a whole one. -/
theorem length_ge_of_decodeFrame_take {w : List Byte} {g : Frame} (h : decodeFrame (w.take 11) = some g) :
    11 ≤ w.length := by
  have hlen := length_of_decodeFrame h
  rw [List.length_take] at hlen
  omega

theorem scanStep_of_length_lt {s : State} (h : s.buf.length < 11) : scanStep s = s.stepReturns .idle := if_pos h

theorem scanStep_of_held {s : State} {g f : Frame} (hdecode : decodeFrame (s.buf.take 11) = some g)
    (hout : s.out = some f) : scanStep s = s.stepReturns .held := by
  obtain ⟨hshort, -⟩ | ⟨-, -, he⟩ | ⟨-, _, -, hnone, -⟩ | ⟨-, hinvalid, -⟩ := scanStep_cases s
  · exact absurd (length_ge_of_decodeFrame_take hdecode) hshort.not_ge
  · exact he
  · simp [hout] at hnone
  · simp [hdecode] at hinvalid

theorem scanStep_of_drop {s : State} (hlen : 11 ≤ s.buf.length) (hdecode : decodeFrame (s.buf.take 11) = none) :
    scanStep s = (s.dropFront 1).stepReturns (.drop (byteAt s.buf 0)) := by
  obtain ⟨hshort, -⟩ | ⟨-, ⟨_, _, hvalid, -⟩, -⟩ | ⟨-, _, hvalid, -, -⟩ | ⟨-, -, he⟩ := scanStep_cases s
  · exact absurd hlen hshort.not_ge
  · simp [hdecode] at hvalid
  · simp [hdecode] at hvalid
  · exact he

@[simp] theorem scanStep_frame (s : State) :
    (scanStep s).ovf = s.ovf ∧ (scanStep s).cap = s.cap ∧ (scanStep s).taken = s.taken ∧
      (scanStep s).pending = s.pending := by
  obtain ⟨-, he⟩ | ⟨-, -, he⟩ | ⟨-, _, -, -, he⟩ | ⟨-, -, he⟩ := scanStep_cases s <;> simp [he]

/-- A frame in OUT after a STEP was there before, or is the one decoded from the front window. -/
theorem scanStep_out_cases {s : State} {g : Frame} (h : (scanStep s).out = some g) :
    s.out = some g ∨ (decodeFrame (s.buf.take 11) = some g ∧ (scanStep s).buf = s.buf.drop 11) := by
  obtain ⟨-, he⟩ | ⟨-, -, he⟩ | ⟨-, f, hdecode, -, he⟩ | ⟨-, -, he⟩ := scanStep_cases s
  · exact .inl (by simpa [he] using h)
  · exact .inl (by simpa [he] using h)
  · obtain rfl : f = g := by simpa [he] using h
    exact .inr ⟨hdecode, by simp [he]⟩
  · exact .inl (by simpa [he] using h)

/-- Settles O22: the four cases of STEP have exclusive conditions and different outcomes. -/
theorem stepReturnsExactlyOneOutcome : Obligations.StepReturnsExactlyOneOutcome := by
  intro s t hstep
  obtain rfl := exec_step_eq_next_iff.1 hstep
  obtain ⟨hshort, he⟩ | ⟨hlen, ⟨g, f, hdecode, hout⟩, he⟩ | ⟨hlen, g, hdecode, hout, he⟩ | ⟨hlen, hdecode, he⟩ :=
    scanStep_cases s
  · have hnone : decodeFrame (s.buf.take 11) = none := decodeFrame_of_length_lt (by rw [List.length_take]; omega)
    simp [he, hshort, hnone]
  · simp [he, hlen, hdecode, hout]
  · simp [he, hlen, hdecode, hout]
  · simp [he, hlen, hdecode]

/-! TAKE: its two cases, and what it leaves (41_stream_reassembler.md R166, R167). -/

theorem takeFrame_of_out_eq_some {s : State} {g : Frame} (h : s.out = some g) :
    takeFrame s = ((s.logTaken g).clearOut).takeReturns (some g) := by
  simp [takeFrame, h]

theorem takeFrame_of_out_eq_none {s : State} (h : s.out = none) : takeFrame s = s.takeReturns none := by
  simp [takeFrame, h]

@[simp] theorem takeFrame_frame (s : State) :
    (takeFrame s).buf = s.buf ∧ (takeFrame s).out = none ∧ (takeFrame s).ovf = s.ovf ∧
      (takeFrame s).cap = s.cap ∧ (takeFrame s).pending = s.pending := by
  obtain ⟨_, -, he⟩ | ⟨hout, he⟩ := takeFrame_cases s
  · simp [he]
  · simp [he, hout]

/-! The clock edge (41_stream_reassembler.md R180). -/

theorem clockEdge_of_rst {p : Pins} (h : p.rst = true) (s : State) : clockEdge p s = resetBlock s := if_pos h

theorem clockEdge_of_not_rst {p : Pins} (h : p.rst = false) (s : State) :
    clockEdge p s = edgePush p (scanStep (edgeTake p s)) := by
  simp [clockEdge, h]

theorem edgeTake_of_ready {p : Pins} {s : State} (hout : s.out.isSome = true) (hready : p.outReady = true) :
    edgeTake p s = takeFrame s := by
  simp [edgeTake, State.outValid, hout, hready]

theorem edgeTake_of_not_ready {p : Pins} (h : p.outReady = false) (s : State) : edgeTake p s = s := by
  simp [edgeTake, h]

theorem edgeTake_of_out_eq_none {s : State} (h : s.out = none) (p : Pins) : edgeTake p s = s := by
  simp [edgeTake, State.outValid, h]

/-- The TAKE of a cycle leaves BUF and OVF. -/
@[simp] theorem edgeTake_frame (p : Pins) (s : State) :
    (edgeTake p s).buf = s.buf ∧ (edgeTake p s).ovf = s.ovf := by
  unfold edgeTake
  split <;> simp

/-- A ready consumer finds OUT empty after its TAKE. -/
theorem edgeTake_out_of_ready {p : Pins} (h : p.outReady = true) (s : State) : (edgeTake p s).out = none := by
  cases hout : s.out with
  | none => rwa [edgeTake_of_out_eq_none hout]
  | some g => simp [edgeTake_of_ready (p := p) (s := s) (by simp [hout]) h]

theorem edgePush_of_inValid {p : Pins} (h : p.inValid = true) (s : State) : edgePush p s = pushByte p.inData s :=
  if_pos h

theorem edgePush_of_not_inValid {p : Pins} (h : p.inValid = false) (s : State) : edgePush p s = s := by
  simp [edgePush, h]

/-! What one request does to the block (log 4). -/

/-- What a request other than a reset does before its PUSH: nothing, a TAKE, a STEP, a TAKE and the STEP after
it, or calls on the host's side of the link. -/
inductive Work (s : State) : State → Prop
  | nothing : Work s s
  | take : Work s (takeFrame s)
  | step : Work s (scanStep s)
  | takeStep : Work s (scanStep (takeFrame s))
  | link (l : Link) : Work s (s.withLink l)

/-- A step waits, resets the block, or does its request's work and then PUSHes the byte the request presents, if any. -/
theorem step_cases_of_request {s t : State} (h : step s = .next t) :
    (s.pending = [] ∧ t = s) ∨
    ∃ r rest, s.pending = r :: rest ∧
      ((r.resets = true ∧ t = resetBlock (s.withPending rest)) ∨
       (r.resets = false ∧ ∃ u, Work (s.withPending rest) u ∧
         ((r.pushed = [] ∧ t = u) ∨ ∃ b, r.pushed = [b] ∧ t = pushByte b u))) := by
  obtain hwait | ⟨w, rest, hp, hport⟩ | ⟨p, rest, hp, rfl⟩ | ⟨c, rest, hp, rfl⟩ := step_cases h
  · exact .inl hwait
  · refine .inr ⟨_, rest, hp, ?_⟩
    obtain ⟨hop, rfl⟩ | ⟨hop, rfl⟩ | ⟨hop, rfl⟩ | ⟨hop, rfl⟩ := hport
    · exact .inr ⟨by simp [Request.resets, hop], _, .step, .inl ⟨by simp [Request.pushed, hop], rfl⟩⟩
    · exact .inr ⟨by simp [Request.resets, hop], _, .nothing, .inr ⟨_, by simp [Request.pushed, hop], rfl⟩⟩
    · exact .inr ⟨by simp [Request.resets, hop], _, .take, .inl ⟨by simp [Request.pushed, hop], rfl⟩⟩
    · exact .inl ⟨by simp [Request.resets, hop], rfl⟩
  · refine .inr ⟨_, rest, hp, ?_⟩
    obtain ⟨hrst, he⟩ | ⟨hrst, u, hu, hpush⟩ := clockEdge_cases p (s.withPending rest)
    · exact .inl ⟨hrst, he⟩
    · have hwork : Work (s.withPending rest) (scanStep u) := by
        obtain rfl | ⟨-, -, rfl⟩ := hu
        · exact .step
        · exact .takeStep
      refine .inr ⟨hrst, _, hwork, ?_⟩
      obtain ⟨hv, he⟩ | ⟨hv, he⟩ := hpush
      · exact .inl ⟨by simp [Request.pushed, hv], he⟩
      · exact .inr ⟨_, by simp [Request.pushed, hv, hrst], he⟩
  · exact .inr ⟨_, rest, hp, .inr ⟨rfl, _, .link _, .inl ⟨rfl, rfl⟩⟩⟩

/-- The work before the PUSH touches neither OVF nor what is still presented. -/
theorem Work.frame {s u : State} (h : Work s u) : u.ovf = s.ovf ∧ u.pending = s.pending := by
  cases h <;> simp

/-- A frame in OUT after the work was there before, or is the one decoded from the front window. -/
theorem Work.out_cases {s u : State} (h : Work s u) {g : Frame} (hout : u.out = some g) :
    (s.out = some g ∧ u.taken = s.taken) ∨ (decodeFrame (s.buf.take 11) = some g ∧ u.buf = s.buf.drop 11) := by
  cases h with
  | nothing => exact .inl ⟨hout, rfl⟩
  | take => simp at hout
  | step =>
    obtain hold | hnew := scanStep_out_cases hout
    · exact .inl ⟨hold, by simp⟩
    · exact .inr hnew
  | takeStep =>
    obtain hold | hnew := scanStep_out_cases hout
    · simp at hold
    · exact .inr (by simpa using hnew)
  | link l => exact .inl ⟨hout, rfl⟩

/-- With fewer than 11 bytes buffered the work can only take the frame in OUT. -/
theorem Work.of_length_lt {s u : State} (h : Work s u) (hshort : s.buf.length < 11) :
    u.buf = s.buf ∧ (u.out = s.out ∨ u.out = none) := by
  cases h with
  | nothing => simp
  | take => simp
  | step => simp [scanStep_of_length_lt hshort]
  | takeStep => simp [scanStep_of_length_lt (s := takeFrame s) (by simpa using hshort)]
  | link l => simp

/-- Settles O42: the work of a request loads OUT only by an EMIT, and its PUSH adds at most one byte behind. -/
theorem emittedFramesComeFromTheFront : Obligations.EmittedFramesComeFromTheFront := by
  intro s t g hstep hout
  obtain ⟨-, rfl⟩ | ⟨r, rest, -, ⟨-, rfl⟩ | ⟨-, u, hwork, hpush⟩⟩ := step_cases_of_request hstep
  · exact .inl ⟨hout, rfl⟩
  · simp at hout
  · have hkeep : u.out = t.out ∧ t.taken = u.taken ∧ u.buf <+: t.buf ∧ t.buf.length ≤ u.buf.length + 1 := by
      obtain ⟨-, rfl⟩ | ⟨b, -, rfl⟩ := hpush
      · simp
      · obtain hb | hb := pushByte_buf_cases b u <;> simp [hb]
    obtain ⟨hsame, htaken, hfront, hgrow⟩ := hkeep
    obtain ⟨hold, hlog⟩ | ⟨hdecode, hbuf⟩ := hwork.out_cases (hsame.trans hout)
    · exact .inl ⟨hold, htaken.trans hlog⟩
    · have hlen : 11 ≤ s.buf.length := length_ge_of_decodeFrame_take hdecode
      rw [hbuf] at hfront hgrow
      refine .inr ⟨hdecode, hfront, hgrow.trans ?_⟩
      simp only [State.withPending_buf, List.length_drop]
      omega

/-- Settles O44: fewer than 11 bytes are no window, so only the request's PUSH touches BUF. -/
theorem tailIsRetained : Obligations.TailIsRetained := by
  intro s t r rest hp hr hshort hstep
  obtain ⟨hwait, -⟩ | ⟨r', rest', hp', hcase⟩ := step_cases_of_request hstep
  · simp [hp] at hwait
  · obtain ⟨rfl, rfl⟩ := List.cons.inj (hp.symm.trans hp')
    obtain ⟨hreset, -⟩ | ⟨-, u, hwork, hpush⟩ := hcase
    · simp [hr] at hreset
    · obtain ⟨hbuf, hout⟩ := hwork.of_length_lt hshort
      obtain ⟨-, rfl⟩ | ⟨b, hb, rfl⟩ := hpush
      · exact ⟨by simp [hbuf], fun _ => hbuf, hout, decodeFrame_of_length_lt hshort⟩
      · have hfront : s.buf <+: (pushByte b u).buf := by
          obtain hadd | hadd := pushByte_buf_cases b u <;> simp [hadd, hbuf]
        exact ⟨hfront, fun hnone => by simp [hb] at hnone, by simpa using hout, decodeFrame_of_length_lt hshort⟩

end Sys2Proof.Machine

namespace Sys2Proof.Machine

/-! EXTRACT by its recursion (41_stream_reassembler.md R170, R171). -/

theorem extract_of_length_lt {bytes : List Byte} (h : bytes.length < 11) : extract bytes = ([], bytes) := by
  rw [← extractFuel_eq_extract (Nat.le_succ _)]
  exact if_pos h

theorem extract_of_decodeFrame {bytes : List Byte} {g : Frame} (h : decodeFrame (bytes.take 11) = some g) :
    extract bytes = (g :: (extract (bytes.drop 11)).1, (extract (bytes.drop 11)).2) := by
  have hlen := length_ge_of_decodeFrame_take h
  have hrest : extractFuel bytes.length (bytes.drop 11) = extract (bytes.drop 11) :=
    extractFuel_eq_extract (by simp)
  rw [← extractFuel_eq_extract (Nat.le_succ _)]
  simp [extractFuel, Config.frameLen, hlen.not_gt, windowFrame_eq_decodeFrame, h, hrest]

theorem extract_of_drop {bytes : List Byte} (hlen : 11 ≤ bytes.length) (h : decodeFrame (bytes.take 11) = none) :
    extract bytes = extract (bytes.drop 1) := by
  have hrest : extractFuel bytes.length (bytes.drop 1) = extract (bytes.drop 1) := extractFuel_eq_extract (by simp)
  rw [← extractFuel_eq_extract (Nat.le_succ _), ← hrest]
  simp [extractFuel, Config.frameLen, hlen.not_gt, windowFrame_eq_decodeFrame, h]

/-- Settles O45: one equation for each branch of the recursion. -/
theorem extractFollowsItsRecursion : Obligations.ExtractFollowsItsRecursion := fun _ =>
  ⟨extract_of_length_lt, fun _ _ => extract_of_decodeFrame, extract_of_drop⟩

/-- Induction along EXTRACT's scan. -/
theorem extract_induction {P : List Byte → Prop} (short : ∀ bytes, bytes.length < 11 → P bytes)
    (frame : ∀ bytes g, decodeFrame (bytes.take 11) = some g → P (bytes.drop 11) → P bytes)
    (drop : ∀ bytes, 11 ≤ bytes.length → decodeFrame (bytes.take 11) = none → P (bytes.drop 1) → P bytes)
    (bytes : List Byte) : P bytes := by
  induction hn : bytes.length using Nat.strong_induction_on generalizing bytes with
  | _ n ih =>
    obtain hshort | hlen := Nat.lt_or_ge bytes.length 11
    · exact short bytes hshort
    · cases hdecode : decodeFrame (bytes.take 11) with
      | none => exact drop bytes hlen hdecode (ih _ (by rw [List.length_drop]; omega) _ rfl)
      | some g => exact frame bytes g hdecode (ih _ (by rw [List.length_drop]; omega) _ rfl)

theorem extract_tail_suffix (bytes : List Byte) : (extract bytes).2 <:+ bytes := by
  induction bytes using extract_induction with
  | short bytes hshort => rw [extract_of_length_lt hshort]
  | frame bytes g hdecode ih =>
    rw [extract_of_decodeFrame hdecode]
    exact ih.trans (List.drop_suffix 11 bytes)
  | drop bytes hlen hdecode ih =>
    rw [extract_of_drop hlen hdecode]
    exact ih.trans (List.drop_suffix 1 bytes)

theorem extract_tail_length_le (bytes : List Byte) : (extract bytes).2.length ≤ 10 := by
  induction bytes using extract_induction with
  | short bytes hshort => rw [extract_of_length_lt hshort]; exact Nat.le_of_lt_succ hshort
  | frame bytes g hdecode ih => rwa [extract_of_decodeFrame hdecode]
  | drop bytes hlen hdecode ih => rwa [extract_of_drop hlen hdecode]

/-- A scan that has dropped a byte and found no frame stops at the first ten bytes left. -/
theorem extract_tail_length_of_no_frame {bytes : List Byte} (hnone : (extract bytes).1 = [])
    (hlen : 11 ≤ bytes.length) : (extract bytes).2.length = 10 := by
  induction bytes using extract_induction with
  | short bytes hshort => omega
  | frame bytes g hdecode ih => simp [extract_of_decodeFrame hdecode] at hnone
  | drop bytes _ hdecode ih =>
    rw [extract_of_drop hlen hdecode] at hnone ⊢
    have hdrop : (bytes.drop 1).length = bytes.length - 1 := List.length_drop
    obtain hmore | hend := Nat.lt_or_ge 11 bytes.length
    · exact ih hnone (by omega)
    · rw [extract_of_length_lt (by omega), hdrop]
      omega

/-- Where the last frame found ends, the tail is what follows, or ten bytes of it. -/
theorem extract_tail_of_last_frame {bytes : List Byte} {pre : List Frame} {g : Frame}
    (hlast : (extract bytes).1 = pre ++ [g]) : ∃ w rest, decodeFrame w = some g ∧ w ++ rest <:+ bytes ∧
      ((rest.length ≤ 10 ∧ (extract bytes).2 = rest) ∨ (11 ≤ rest.length ∧ (extract bytes).2.length = 10)) := by
  induction bytes using extract_induction generalizing pre with
  | short bytes hshort => simp [extract_of_length_lt hshort] at hlast
  | frame bytes f hdecode ih =>
    rw [extract_of_decodeFrame hdecode] at hlast ⊢
    cases pre with
    | nil =>
      obtain ⟨rfl, hnone⟩ := List.cons.inj hlast
      refine ⟨bytes.take 11, bytes.drop 11, hdecode, by rw [List.take_append_drop], ?_⟩
      obtain hshort | hlen := Nat.lt_or_ge (bytes.drop 11).length 11
      · exact .inl ⟨Nat.le_of_lt_succ hshort, by rw [extract_of_length_lt hshort]⟩
      · exact .inr ⟨hlen, extract_tail_length_of_no_frame hnone hlen⟩
    | cons p pre =>
      obtain ⟨w, rest, hw, hsuffix, htail⟩ := ih (List.cons.inj hlast).2
      exact ⟨w, rest, hw, hsuffix.trans (List.drop_suffix 11 bytes), htail⟩
  | drop bytes hlen hdecode ih =>
    rw [extract_of_drop hlen hdecode] at hlast ⊢
    obtain ⟨w, rest, hw, hsuffix, htail⟩ := ih hlast
    exact ⟨w, rest, hw, hsuffix.trans (List.drop_suffix 1 bytes), htail⟩

/-- Settles O46: each clause by induction along the scan. -/
theorem tailIsAShortSuffix : Obligations.TailIsAShortSuffix := fun bytes =>
  ⟨extract_tail_suffix bytes, extract_tail_length_le bytes, fun hshort => extract_of_length_lt (Nat.lt_succ_of_le hshort),
    extract_tail_length_of_no_frame, fun _ _ => extract_tail_of_last_frame⟩

/-! Frames and garbage in front of a byte sequence (41_stream_reassembler.md R175, R176). -/

/-- A valid frame at the front is found, and what follows is scanned as if it stood alone. -/
theorem extract_frame_append {frame : List Byte} {g : Frame} (h : decodeFrame frame = some g) (rest : List Byte) :
    extract (frame ++ rest) = (g :: (extract rest).1, (extract rest).2) := by
  have hlen := length_of_decodeFrame h
  have htake : (frame ++ rest).take 11 = frame := List.take_left' hlen
  have hdrop : (frame ++ rest).drop 11 = rest := List.drop_left' hlen
  rw [extract_of_decodeFrame (by rwa [htake]), hdrop]

/-- A window that does not begin with the sync byte is dropped. -/
theorem extract_cons_of_ne_sync {b : Byte} (hb : b ≠ 0x55) {bytes : List Byte} (hlen : 10 ≤ bytes.length) :
    extract (b :: bytes) = extract bytes := by
  refine extract_of_drop (Nat.succ_le_succ hlen) (Option.eq_none_iff_forall_ne_some.2 fun g hdecode => hb ?_)
  obtain ⟨-, hsync, -⟩ := decodeFrame_eq_some_iff.1 hdecode
  exact hsync

theorem extract_append_of_no_sync {garbage : List Byte} (h : ∀ b ∈ garbage, b ≠ 0x55) {bytes : List Byte}
    (hlen : 11 ≤ bytes.length) : extract (garbage ++ bytes) = extract bytes := by
  induction garbage with
  | nil => rfl
  | cons b garbage ih =>
    obtain ⟨hb, hgarbage⟩ := List.forall_mem_cons.1 h
    rw [List.cons_append, extract_cons_of_ne_sync hb (by rw [List.length_append]; omega), ih hgarbage]

/-- Settles O47: the garbage is skipped byte by byte, up to the frame. -/
theorem resynchronizationFindsTheNextFrame : Obligations.ResynchronizationFindsTheNextFrame := by
  intro garbage frame rest g hgarbage hframe
  have hlen : 11 ≤ (frame ++ rest).length := by rw [List.length_append, length_of_decodeFrame hframe]; omega
  have hfound : extract (garbage ++ frame ++ rest) = (g :: (extract rest).1, (extract rest).2) := by
    rw [List.append_assoc, extract_append_of_no_sync hgarbage hlen, extract_frame_append hframe]
  exact ⟨hfound, fun hshort => by rw [hfound, extract_of_length_lt (Nat.lt_succ_of_le hshort)]⟩

/-- Settles O48: frame by frame. -/
theorem concatenatedFramesAreAllFound : Obligations.ConcatenatedFramesAreAllFound := by
  intro l hvalid
  induction l with
  | nil => exact extract_of_length_lt (Nat.succ_pos 10)
  | cons p l ih =>
    obtain ⟨hp, hl⟩ := List.forall_mem_cons.1 hvalid
    rw [List.flatMap_cons, extract_frame_append hp, ih hl, List.map_cons]

end Sys2Proof.Machine

namespace Sys2Proof.Machine

/-! Interleaving independence (41_stream_reassembler.md R172 to R174, R179): what EXTRACT finds in the stream does not
change while the block works on it. -/

/-- What a state stands for when `later` is still to be pushed: the frames loaded so far and those EXTRACT finds in what
BUF and `later` hold, with the tail it leaves (41_stream_reassembler.md R173 (a)). -/
def State.account (s : State) (later : List Byte) : List Frame × List Byte :=
  (s.taken ++ s.out.toList ++ (extract (s.buf ++ later)).1, (extract (s.buf ++ later)).2)

/-- A reset state has loaded nothing and buffers nothing. -/
theorem account_resetWith (cap : Config.BufCap) (later : List Byte) :
    (State.resetWith cap).account later = extract later := by
  simp [State.account]

/-- A request presented and a call on the host's link are no part of the account. -/
@[simp] theorem account_withPending (s : State) (p : List Request) (later : List Byte) :
    (s.withPending p).account later = s.account later := rfl

@[simp] theorem account_withLink (s : State) (l : Link) (later : List Byte) :
    (s.withLink l).account later = s.account later := rfl

/-- STEP reads the front window only, so it takes the step that EXTRACT takes whatever is pushed later. -/
@[simp] theorem account_scanStep (s : State) (later : List Byte) :
    (scanStep s).account later = s.account later := by
  obtain ⟨-, he⟩ | ⟨-, -, he⟩ | ⟨hlen, g, hdecode, hout, he⟩ | ⟨hlen, hdecode, he⟩ := scanStep_cases s
  · simp [he, State.account]
  · simp [he, State.account]
  · have hfound : extract (s.buf ++ later) =
        (g :: (extract (s.buf.drop 11 ++ later)).1, (extract (s.buf.drop 11 ++ later)).2) := by
      rw [extract_of_decodeFrame (by rwa [List.take_append_of_le_length hlen]), List.drop_append_of_le_length hlen]
    simp [he, State.account, hfound, hout]
  · have hskip : extract (s.buf ++ later) = extract (s.buf.drop 1 ++ later) := by
      rw [extract_of_drop (by rw [List.length_append]; omega) (by rwa [List.take_append_of_le_length hlen]),
        List.drop_append_of_le_length (by omega)]
    simp [he, State.account, hskip]

/-- TAKE moves a frame from OUT to the end of the log. -/
@[simp] theorem account_takeFrame (s : State) (later : List Byte) :
    (takeFrame s).account later = s.account later := by
  obtain ⟨g, hout, he⟩ | ⟨-, he⟩ := takeFrame_cases s
  · simp [he, State.account, hout]
  · simp [he, State.account]

/-- A byte appended was the first of those still to come. -/
theorem account_append (s : State) (b : Byte) (later : List Byte) :
    (s.append b).account later = s.account (b :: later) := by
  simp [State.account]

/-- A property that TAKE and STEP keep is kept by DRAIN. -/
theorem drain_keeps {P : State → Prop} (htake : ∀ s, P s → P (takeFrame s)) (hstep : ∀ s, P s → P (scanStep s))
    {s : State} (h : P s) : P (drain s) := by
  suffices hfuel : ∀ fuel s, P s → P (drainFuel fuel s) from hfuel _ s h
  intro fuel
  induction fuel with
  | zero => exact fun _ hs => hs
  | succ fuel ih =>
    intro s hs
    cases hgo : s.drainable with
    | false => rwa [drainFuel_of_not_drainable hgo]
    | true =>
      rw [drainFuel_succ_of_drainable hgo]
      obtain ⟨-, honce⟩ | ⟨-, honce⟩ := drainOnce_cases s
      · exact ih _ (honce ▸ htake s hs)
      · exact ih _ (honce ▸ hstep s hs)

@[simp] theorem account_drain (s : State) (later : List Byte) : (drain s).account later = s.account later :=
  drain_keeps (P := fun t => t.account later = s.account later) (fun _ h => by simpa using h)
    (fun _ h => by simpa using h) rfl

/-- DRAIN touches neither OVF nor the capacity. -/
@[simp] theorem drain_frame (s : State) : (drain s).ovf = s.ovf ∧ (drain s).cap = s.cap :=
  drain_keeps (P := fun t => t.ovf = s.ovf ∧ t.cap = s.cap) (fun _ h => by simpa using h)
    (fun _ h => by simpa using h) ⟨rfl, rfl⟩

/-- DRAIN ends with no window left and OUT empty. -/
theorem drain_ends (s : State) : (drain s).buf.length < 11 ∧ (drain s).out = none :=
  (State.drainable_eq_false_iff _).1 (drainFuel_not_drainable s.drainCost_le)

/-- What DRAIN leaves is what the account said: its frames in the log, its tail in BUF. -/
theorem drain_taken_buf (s : State) : ((drain s).taken, (drain s).buf) = s.account [] := by
  obtain ⟨hshort, hout⟩ := drain_ends s
  rw [← account_drain]
  simp [State.account, hout, extract_of_length_lt hshort]

/-- Settles O49: with OUT empty the account is the log and what EXTRACT finds in BUF. -/
theorem drainEqualsExtract : Obligations.DrainEqualsExtract := by
  intro s hout
  have hdone : ((drain s).taken, (drain s).buf) = (s.taken ++ (extract s.buf).1, (extract s.buf).2) := by
    simp [drain_taken_buf, State.account, hout]
  obtain ⟨htaken, hbuf⟩ := Prod.mk.inj hdone
  obtain ⟨hovf, hcap⟩ := drain_frame s
  exact ⟨htaken, hbuf, (drain_ends s).2, hovf, hcap⟩

/-- Settles O51: DRAIN's loop has ended. -/
theorem drainBoundsTheBuffer : Obligations.DrainBoundsTheBuffer := fun s =>
  ⟨Nat.le_of_lt_succ (drain_ends s).1, (drain_ends s).2⟩

theorem pushAll_cons (b : Byte) (bytes : List Byte) (s : State) :
    pushAll (b :: bytes) s = pushAll bytes (pushByte b s) := rfl

@[simp] theorem pushAll_cap (bytes : List Byte) (s : State) : (pushAll bytes s).cap = s.cap := by
  induction bytes generalizing s with
  | nil => rfl
  | cons b bytes ih => simp [pushAll_cons, ih]

/-- With no capacity every byte of a chunk is appended. -/
theorem account_pushAll_of_unbounded {s : State} (h : s.cap = .unbounded) (bytes later : List Byte) :
    (pushAll bytes s).account later = s.account (bytes ++ later) := by
  induction bytes generalizing s with
  | nil => rfl
  | cons b bytes ih =>
    have hroom : s.full = false := s.full_eq_false_iff.2 (by simp [h, bufCapLimit])
    rw [pushAll_cons, pushByte_of_not_full hroom, ih (s := s.append b) h, account_append, List.cons_append]

/-- Settles O53: neither a DRAIN nor a chunk that cannot overflow changes the account. -/
theorem chunkingDoesNotMatter : Obligations.ChunkingDoesNotMatter := by
  intro s first second hcap _ twice once
  have hcap' : (drain (pushAll first s)).cap = .unbounded := by simp [hcap]
  have hsame : (twice.taken, twice.buf) = (once.taken, once.buf) :=
    calc (twice.taken, twice.buf) = (pushAll second (drain (pushAll first s))).account [] := drain_taken_buf _
      _ = s.account (first ++ second) := by
        rw [account_pushAll_of_unbounded hcap', account_drain, account_pushAll_of_unbounded hcap, List.append_nil]
      _ = (pushAll (first ++ second) s).account [] := by
        rw [account_pushAll_of_unbounded hcap, List.append_nil]
      _ = (once.taken, once.buf) := (drain_taken_buf _).symm
  obtain ⟨htaken, hbuf⟩ := Prod.mk.inj hsame
  exact ⟨htaken, hbuf, (drain_ends _).2.trans (drain_ends _).2.symm⟩

/-- The work before a request's PUSH does not change the account. -/
theorem Work.account {s u : State} (h : Work s u) (later : List Byte) : u.account later = s.account later := by
  cases h <;> simp

/-- A step whose request is no reset uses the request up; if it leaves OVF clear, it found OVF clear and accounts for the
byte presented. -/
theorem step_of_not_resets {s t : State} {r : Request} {rest : List Request} (hp : s.pending = r :: rest)
    (hr : r.resets = false) (hstep : step s = .next t) :
    t.pending = rest ∧
      (t.ovf = false → s.ovf = false ∧ ∀ later, t.account later = s.account (r.pushed ++ later)) := by
  obtain ⟨hwait, -⟩ | ⟨r', rest', hp', hcase⟩ := step_cases_of_request hstep
  · simp [hp] at hwait
  · obtain ⟨rfl, rfl⟩ := List.cons.inj (hp.symm.trans hp')
    obtain ⟨hreset, -⟩ | ⟨-, u, hwork, hpush⟩ := hcase
    · simp [hr] at hreset
    · obtain ⟨hovf, hpending⟩ := hwork.frame
      obtain ⟨hnone, rfl⟩ | ⟨b, hb, rfl⟩ := hpush
      · exact ⟨hpending, fun hclear => ⟨hovf.symm.trans hclear, fun later => by simp [hnone, hwork.account]⟩⟩
      · refine ⟨by simpa using hpending, fun hclear => ?_⟩
        obtain ⟨hfound, he⟩ := pushByte_of_ovf_eq_false hclear
        exact ⟨hovf.symm.trans hfound, fun later => by simp [he, hb, account_append, hwork.account]⟩

open Sys2Proof.Safety in
/-- A run without a reset that leaves OVF clear accounts for every byte presented. -/
theorem account_of_runsTo {rs : List Request} {s t : State} (hp : s.pending = rs) (hr : ∀ r ∈ rs, r.resets = false)
    (hrun : RunsTo rs.length s t) (hclear : t.ovf = false) :
    s.ovf = false ∧ s.account (pushedBytes rs) = t.account [] := by
  induction rs generalizing s with
  | nil =>
    obtain rfl := (runsTo_zero_iff s t).1 hrun
    exact ⟨hclear, rfl⟩
  | cons r rs ih =>
    obtain ⟨hnow, hlater⟩ := List.forall_mem_cons.1 hr
    obtain ⟨u, hstep, hrest⟩ := (runsTo_succ_iff rs.length s t).1 hrun
    obtain ⟨hpending, hgood⟩ := step_of_not_resets hp hnow hstep
    obtain ⟨hu, haccount⟩ := ih hpending hlater hrest
    obtain ⟨hs, hbyte⟩ := hgood hu
    exact ⟨hs, (hbyte (pushedBytes rs)).symm.trans haccount⟩

/-- Settles O52: the account of the reset state is EXTRACT of the whole stream. -/
theorem framesDoNotDependOnTheInterleaving : Obligations.FramesDoNotDependOnTheInterleaving := by
  intro cap rs t hr hrun hclear
  obtain ⟨-, haccount⟩ := account_of_runsTo (s := (State.resetWith cap).withPending rs) rfl hr hrun hclear
  rw [account_withPending, account_resetWith] at haccount
  simpa [State.account] using haccount

end Sys2Proof.Machine

namespace Sys2Proof.Machine

/-! A ready consumer (41_stream_reassembler.md R181, R182). -/

/-- With OUT empty nothing holds the STEP: of at most 11 bytes at most ten are left. -/
theorem scanStep_buf_length_le {s : State} (hout : s.out = none) (hlen : s.buf.length ≤ 11) :
    (scanStep s).buf.length ≤ 10 := by
  obtain ⟨hshort, he⟩ | ⟨-, ⟨_, f, -, hfull⟩, -⟩ | ⟨-, g, -, -, he⟩ | ⟨-, -, he⟩ := scanStep_cases s
  · simp only [he, State.stepReturns_buf]
    omega
  · simp [hout] at hfull
  · simp [he]
    omega
  · simp [he]
    omega

/-- The PUSH of a cycle that finds at most ten bytes has room for its byte. -/
theorem edgePush_of_length_le {s : State} (hlen : s.buf.length ≤ 10) (p : Pins) :
    (edgePush p s).buf.length ≤ 11 ∧ (edgePush p s).ovf = s.ovf := by
  unfold edgePush
  split
  · rw [pushByte_of_length_lt (Nat.lt_succ_of_le hlen)]
    exact ⟨by simpa using Nat.lt_succ_of_le hlen, rfl⟩
  · exact ⟨hlen.trans (Nat.le_succ 10), rfl⟩

/-- An edge with a ready consumer keeps BUF within 11 bytes and OVF clear. -/
theorem clockEdge_keeps_elevenBytes {p : Pins} {s : State} (hready : p.outReady = true) (hlen : s.buf.length ≤ 11)
    (hovf : s.ovf = false) : (clockEdge p s).buf.length ≤ 11 ∧ (clockEdge p s).ovf = false := by
  cases hrst : p.rst with
  | true => simp [clockEdge_of_rst hrst]
  | false =>
    have hscan : (scanStep (edgeTake p s)).buf.length ≤ 10 :=
      scanStep_buf_length_le (edgeTake_out_of_ready hready s) (by simpa using hlen)
    obtain ⟨hbound, hkeep⟩ := edgePush_of_length_le hscan p
    rw [clockEdge_of_not_rst hrst]
    exact ⟨hbound, hkeep.trans (by simpa using hovf)⟩

/-- Settles O55: an invariant of the run. -/
theorem readyConsumerNeverOverflows : Obligations.ReadyConsumerNeverOverflows := by
  intro ps
  induction ps with
  | nil => exact fun s _ hlen hovf => ⟨hlen, hovf⟩
  | cons p ps ih =>
    intro s hready hlen hovf
    obtain ⟨hp, hps⟩ := List.forall_mem_cons.1 hready
    obtain ⟨hlen', hovf'⟩ := clockEdge_keeps_elevenBytes hp hlen hovf
    exact ih (clockEdge p s) hps hlen' hovf'

theorem take_eleven_of_decodeFrame {w : List Byte} {g : Frame} (h : decodeFrame w = some g) : w.take 11 = w :=
  List.take_of_length_le (length_of_decodeFrame h).le

/-- A cycle that finds ten bytes after its STEP appends the byte it presents, and leaves OUT as the STEP left it. -/
theorem clockEdge_of_scanStep {p : Pins} {s u : State} (hrst : p.rst = false) (hvalid : p.inValid = true)
    (hscan : scanStep (edgeTake p s) = u) (hlen : u.buf.length = 10) :
    clockEdge p s = u.append p.inData := by
  rw [clockEdge_of_not_rst hrst, hscan, edgePush_of_inValid hvalid, pushByte_of_length_lt (by omega)]

/-- With a ready consumer, the last byte of a frame completes it in BUF, where ten bytes are buffered, or eleven of which
the cycle's STEP drops the first; and OUT stays empty. -/
theorem clockEdge_completes_frame {s : State} {p : Pins} {g : Frame} (hrst : p.rst = false) (hvalid : p.inValid = true)
    (hready : p.outReady = true)
    (hframe : decodeFrame (s.buf ++ [p.inData]) = some g ∨
      (s.buf.length = 11 ∧ decodeFrame s.buf = none ∧ decodeFrame (s.buf.drop 1 ++ [p.inData]) = some g)) :
    decodeFrame (clockEdge p s).buf = some g ∧ (clockEdge p s).out = none := by
  have hout : (edgeTake p s).out = none := edgeTake_out_of_ready hready s
  obtain ⟨hbuf, -⟩ := edgeTake_frame p s
  obtain hten | ⟨hlen, hnone, heleven⟩ := hframe
  · have hlen : s.buf.length = 10 := by simpa using length_of_decodeFrame hten
    have hidle := scanStep_of_length_lt (s := edgeTake p s) (by rw [hbuf]; omega)
    rw [clockEdge_of_scanStep hrst hvalid hidle (by simpa using hlen)]
    simp [hten, hout]
  · have hdrop := scanStep_of_drop (s := edgeTake p s) (by rw [hbuf, hlen])
      (by rwa [hbuf, List.take_of_length_le hlen.le])
    rw [clockEdge_of_scanStep hrst hvalid hdrop (by simp [hlen])]
    simpa [hout] using heleven

/-- A frame that is all of BUF is on OUT after the next edge. -/
theorem clockEdge_emits {s : State} {q : Pins} {g : Frame} (hrst : q.rst = false)
    (hframe : decodeFrame s.buf = some g) (hout : s.out = none) :
    (clockEdge q s).out = some g ∧ (clockEdge q s).lastStep = some (.emit g) := by
  have hemit := scanStep_of_decodeFrame (s := s) (by rwa [take_eleven_of_decodeFrame hframe]) hout
  rw [clockEdge_of_not_rst hrst, edgeTake_of_out_eq_none hout, hemit]
  unfold edgePush
  split <;> simp

/-- Settles O56: the first edge completes the frame in BUF, the second emits it. -/
theorem frameIsVisibleTwoCyclesAfterItsLastByte : Obligations.FrameIsVisibleTwoCyclesAfterItsLastByte := by
  intro s p q g n hp hq hvalid hready _ hframe
  obtain ⟨hbuf, hout⟩ := clockEdge_completes_frame hp hvalid hready hframe
  obtain ⟨hload, hresult⟩ := clockEdge_emits hq hbuf hout
  have hrun : clockRun [p, q] s = clockEdge q (clockEdge p s) := rfl
  rw [hrun]
  exact ⟨by simp [hload], ports_outFrame_of_out_eq_some n hload, hresult⟩

/-! The atomic operations and the clock edge as the spec's tables write them. -/

/-- Settles O20: FULL is the comparison with BUF_CAP, and a cycle's PUSH runs on what the cycle without it leaves. -/
theorem pushAppendsOrSetsOvf : Obligations.PushAppendsOrSetsOvf := by
  intro b s
  refine ⟨decodePort_portWord_one b, fun hcap => ?_, fun n hcap hroom => ?_, fun n hcap hlen => ?_, fun _ => rfl,
    fun chunk t hpush => ?_⟩
  · exact congrArg _ (pushByte_of_not_full (s.full_eq_false_iff.2 (by simp [hcap])) b)
  · exact congrArg _ (pushByte_of_not_full (s.full_eq_false_iff.2 (by simpa [hcap] using hroom)) b)
  · exact congrArg _ (pushByte_of_full (s.full_eq_true_iff.2 ⟨n, hcap, hlen.ge⟩) b)
  · obtain rfl := exec_push_eq_next_iff.1 hpush
    exact ⟨rfl, rfl⟩

/-- Settles O21: one equation for each case of STEP, and a cycle with neither a TAKE nor a PUSH. -/
theorem stepFollowsItsFourCases : Obligations.StepFollowsItsFourCases := by
  intro s
  refine ⟨decodePort_portWord_zero, fun hshort => ?_, fun g _ hdecode hout => ?_, fun g f _ hdecode hout => ?_,
    fun b rest hbuf hlen hdecode => ?_, fun d => ?_⟩
  · exact congrArg _ (scanStep_of_length_lt hshort)
  · exact congrArg _ (scanStep_of_decodeFrame hdecode hout)
  · exact congrArg _ (scanStep_of_held hdecode hout)
  · rw [exec_step, scanStep_of_drop hlen hdecode]
    simp [State.dropFront, State.stepReturns, hbuf, byteAt]
  · rw [exec_step, clockEdge_of_not_rst rfl, edgeTake_of_not_ready rfl, edgePush_of_not_inValid rfl]

/-- Settles O23: one equation for each case of TAKE, in a cycle by the TAKE of that cycle; after it OUT is empty, so a
valid window is emitted. -/
theorem takeMovesTheFrameToTheConsumer : Obligations.TakeMovesTheFrameToTheConsumer := by
  intro s
  refine ⟨decodePort_portWord_two, fun g hout => ?_, fun hout => ?_, fun v d hout t htake => ?_, fun v d hout => ?_,
    fun g f t hdecode _ htake => ?_⟩
  · exact congrArg _ (takeFrame_of_out_eq_some hout)
  · exact congrArg _ (takeFrame_of_out_eq_none hout)
  · obtain rfl := exec_take_eq_next_iff.1 htake
    rw [clockEdge_of_not_rst rfl, clockEdge_of_not_rst rfl, edgeTake_of_ready hout rfl, edgeTake_of_not_ready rfl]
    rfl
  · rw [clockEdge_of_not_rst rfl, clockEdge_of_not_rst rfl, edgeTake_of_out_eq_none hout, edgeTake_of_not_ready rfl]
    rfl
  · obtain rfl := exec_take_eq_next_iff.1 htake
    refine ⟨_, exec_step _, ?_⟩
    simp [scanStep_of_decodeFrame (s := takeFrame s) (g := g) (by simpa using hdecode)]

/-- Settles O54: the states between are those that the TAKE and the STEP of the cycle leave. -/
theorem clockEdgeRunsTakeStepPush : Obligations.ClockEdgeRunsTakeStepPush := by
  intro p s
  refine ⟨fun hrst => ?_, fun hrst => ⟨edgeTake p s, scanStep (edgeTake p s), ?_, exec_step _, ?_⟩, fun n => ?_⟩
  · rw [exec_reset, clockEdge_of_rst hrst]
  · split
    · next hboth =>
      obtain ⟨hout, hready⟩ := hboth
      rw [exec_take, edgeTake_of_ready hout hready]
    · next hnot => exact if_neg (by simpa [State.outValid] using hnot)
  · rw [clockEdge_of_not_rst hrst]
    split
    · next hvalid => rw [exec_push, edgePush_of_inValid hvalid]
    · next hvalid => rw [edgePush_of_not_inValid (by simpa using hvalid)]
  · exact ⟨ports_outValid n _, ports_ovf n _, fun _ => ports_outFrame_of_out_eq_some n⟩

end Sys2Proof.Machine

namespace Sys2Proof.Machine

/-! Reset, by the port and by the clock (70_reset_and_hazards.md R270, R271). -/

theorem resetBlock_eq_self_iff (s : State) :
    resetBlock s = s ↔ s.buf = [] ∧ s.out = none ∧ s.ovf = false := by
  constructor
  · intro h
    rw [← h]
    exact ⟨resetBlock_buf s, resetBlock_out s, resetBlock_ovf s⟩
  · rintro ⟨hbuf, hout, hovf⟩
    rw [resetBlock, ← hbuf, ← hout, ← hovf]

/-- Settles O24: RESET is `resetBlock`, and so is a cycle with rst = 1. -/
theorem resetEmptiesTheBlock : Obligations.ResetEmptiesTheBlock := by
  refine fun s => ⟨decodePort_portWord_three, exec_reset s, fun hbuf hout hovf => ?_, fun _ _ _ => ?_⟩
  · rw [exec_reset, (resetBlock_eq_self_iff s).2 ⟨hbuf, hout, hovf⟩]
  · rw [exec_reset, clockEdge_of_rst rfl]

/-- Settles O25: a cycle with rst = 1 is `resetBlock`, which reads no pin. -/
theorem rstCycleIsResetFromEveryState : Obligations.RstCycleIsResetFromEveryState := fun _ s hp =>
  ⟨clockEdge_of_rst hp s, fun _ hq => (clockEdge_of_rst hq s).trans (clockEdge_of_rst hp s).symm⟩

/-! A stalled consumer (70_reset_and_hazards.md R277). -/

/-- The pins of a cycle that presents a byte to the block while the consumer is not ready. -/
def stalledCycle (d : Byte) : Pins := ⟨false, true, d, false⟩

/-- A frame waits in OUT and another at the front of BUF: a STEP is held. -/
def State.Blocked (s : State) (f g : Frame) : Prop := s.out = some f ∧ decodeFrame (s.buf.take 11) = some g

theorem scanStep_of_blocked {s : State} {f g : Frame} (h : s.Blocked f g) : scanStep s = s.stepReturns .held :=
  scanStep_of_held h.2 h.1

/-- A byte appended behind the front window leaves the block blocked. -/
theorem State.Blocked.append {s : State} {f g : Frame} (h : s.Blocked f g) (r : StepResult) (d : Byte) :
    ((s.stepReturns r).append d).Blocked f g := by
  obtain ⟨hout, hdecode⟩ := h
  refine ⟨hout, ?_⟩
  rwa [State.append_buf, State.stepReturns_buf,
    List.take_append_of_le_length (length_ge_of_decodeFrame_take hdecode)]

/-- A stalled cycle of a blocked block is its PUSH alone: no TAKE, and a held STEP. -/
theorem clockEdge_stalledCycle {s : State} {f g : Frame} (h : s.Blocked f g) (d : Byte) :
    clockEdge (stalledCycle d) s = pushByte d (s.stepReturns .held) := by
  rw [clockEdge_of_not_rst rfl, edgeTake_of_not_ready rfl, scanStep_of_blocked h, edgePush_of_inValid rfl]
  rfl

/-- What a STEP returns does not bear on FULL. -/
@[simp] theorem State.stepReturns_full (s : State) (r : StepResult) : (s.stepReturns r).full = s.full := rfl

theorem clockEdge_stalledCycle_of_not_full {s : State} {f g : Frame} (h : s.Blocked f g) (hroom : s.full = false)
    (d : Byte) : clockEdge (stalledCycle d) s = (s.stepReturns .held).append d := by
  rw [clockEdge_stalledCycle h, pushByte_of_not_full (by simpa using hroom)]

theorem clockEdge_stalledCycle_of_full {s : State} {f g : Frame} (h : s.Blocked f g) (hfull : s.full = true)
    (d : Byte) : clockEdge (stalledCycle d) s = (s.stepReturns .held).raiseOvf := by
  rw [clockEdge_stalledCycle h, pushByte_of_full (by simpa using hfull)]

theorem clockRun_cons (p : Pins) (ps : List Pins) (s : State) :
    clockRun (p :: ps) s = clockRun ps (clockEdge p s) := rfl

theorem clockRun_append (ps qs : List Pins) (s : State) : clockRun (ps ++ qs) s = clockRun qs (clockRun ps s) :=
  List.foldl_append

/-- While room is left for them, stalled cycles keep every byte they present, and the block stays blocked. -/
theorem clockRun_stalledCycle {s : State} {f g : Frame} {n : Nat} {bytes : List Byte} (h : s.Blocked f g)
    (hcap : bufCapLimit s.cap = some n) (hlen : s.buf.length + bytes.length ≤ n) :
    (clockRun (bytes.map stalledCycle) s).Blocked f g ∧
      (clockRun (bytes.map stalledCycle) s).buf = s.buf ++ bytes ∧
      (clockRun (bytes.map stalledCycle) s).ovf = s.ovf ∧ (clockRun (bytes.map stalledCycle) s).cap = s.cap := by
  induction bytes generalizing s with
  | nil => exact ⟨h, (List.append_nil s.buf).symm, rfl, rfl⟩
  | cons d bytes ih =>
    rw [List.length_cons] at hlen
    have hroom : s.full = false := s.full_eq_false_iff.2 fun m hm => by
      obtain rfl := Option.some.inj (hcap.symm.trans hm)
      omega
    have hlater : ((s.stepReturns .held).append d).buf.length + bytes.length ≤ n := by
      simp
      omega
    rw [List.map_cons, clockRun_cons, clockEdge_stalledCycle_of_not_full h hroom]
    obtain ⟨hblocked, hbuf, hovf, hkeep⟩ := ih (h.append .held d) hcap hlater
    exact ⟨hblocked, by simpa using hbuf, hovf, hkeep⟩

/-- The stalled cycle after those that fill BUF loses its byte and sets OVF. -/
theorem clockRun_stalledCycle_overflow {s : State} {f g : Frame} {n : Nat} {bytes : List Byte} (h : s.Blocked f g)
    (hcap : bufCapLimit s.cap = some n) (hlen : s.buf.length + bytes.length = n) (b : Byte) :
    (clockRun ((bytes ++ [b]).map stalledCycle) s).buf = s.buf ++ bytes ∧
      (clockRun ((bytes ++ [b]).map stalledCycle) s).ovf = true ∧
      (clockRun ((bytes ++ [b]).map stalledCycle) s).out = some f := by
  obtain ⟨hblocked, hbuf, -, hkeep⟩ := clockRun_stalledCycle h hcap hlen.le
  have hfull : (clockRun (bytes.map stalledCycle) s).full = true :=
    (State.full_eq_true_iff _).2 ⟨n, by rw [hkeep, hcap], by rw [hbuf, List.length_append, hlen]⟩
  have hlast : clockRun ((bytes ++ [b]).map stalledCycle) s =
      ((clockRun (bytes.map stalledCycle) s).stepReturns .held).raiseOvf := by
    rw [List.map_append, clockRun_append]
    exact clockEdge_stalledCycle_of_full hblocked hfull b
  rw [hlast]
  exact ⟨hbuf, rfl, hblocked.1⟩

/-- Settles O57: the bytes fill BUF to its capacity, and the next stalled cycle finds it full. -/
theorem stalledConsumerLeadsToOverflow : Obligations.StalledConsumerLeadsToOverflow := by
  intro s bytes b f g n hout hdecode hcap hlen
  have hblocked : s.Blocked f g := ⟨hout, hdecode⟩
  obtain ⟨-, hbuf, hovf, -⟩ := clockRun_stalledCycle hblocked hcap hlen.le
  exact ⟨hbuf, hovf, clockRun_stalledCycle_overflow hblocked hcap hlen b⟩

end Sys2Proof.Machine

namespace Sys2Proof

/-! The wire decoder by what it accepts, and ENCODE as its inverse (30_encoding.md R91, R95, R98). -/

section
open Machine

/-- The wire decoder accepts exactly the valid frames, as the row of the window's type id with the window's fields. -/
theorem decodeWire_eq_ok_iff {w : List Byte} {i : Instr} :
    decodeWire w = .ok i ↔ w.length = 11 ∧ byteAt w 0 = 0x55 ∧ checksum w = byteAt w 10 ∧
      i = frameRow (byteAt w 1) (fieldX w) (fieldY w) (fieldZ w) (fieldT w) := by
  unfold decodeWire Config.frameLen Config.sync fieldX fieldY fieldZ fieldT
  split_ifs <;> simp_all [eq_comm]

theorem decodeWire_encodeFrame (id : Byte) (x y z t : I16) :
    decodeWire (encodeFrame id x y z t) = .ok (frameRow id x y z t) := by
  obtain ⟨hlen, hsync, hsum⟩ := Laws.encodeFrame_form id x y z t
  refine decodeWire_eq_ok_iff.2 ⟨hlen, hsync, hsum, ?_⟩
  simp [encodeFrame, frameBody, byteAt, fieldX, fieldY, fieldZ, fieldT]

@[simp] theorem loByte_le16 (lo hi : Byte) : loByte (le16 lo hi) = lo :=
  BitVec.extractLsb'_append_eq_right

@[simp] theorem hiByte_le16 (lo hi : Byte) : hiByte (le16 lo hi) = hi :=
  BitVec.extractLsb'_append_eq_left

/-- The checksum reads the first ten bytes only. -/
theorem checksum_congr {w v : List Byte} (h : w.take 10 = v.take 10) : checksum w = checksum v := by
  rw [checksum_eq_sum, checksum_eq_sum, h]

/-- Eleven bytes that begin with the sync byte are the body of their fields and a last byte. -/
theorem eq_frameBody_append {w : List Byte} (hlen : w.length = 11) (hsync : byteAt w 0 = 0x55) :
    w = frameBody (byteAt w 1) (fieldX w) (fieldY w) (fieldZ w) (fieldT w) ++ [byteAt w 10] :=
  match w, hlen, hsync with
  | [_, _, _, _, _, _, _, _, _, _, _], _, rfl => by
    simp [frameBody, byteAt, fieldX, fieldY, fieldZ, fieldT, Config.sync]

/-- A valid frame is ENCODE of its own fields. -/
theorem encodeFrame_fields {w : List Byte} (hlen : w.length = 11) (hsync : byteAt w 0 = 0x55)
    (hsum : checksum w = byteAt w 10) :
    encodeFrame (byteAt w 1) (fieldX w) (fieldY w) (fieldZ w) (fieldT w) = w := by
  have hbody := eq_frameBody_append hlen hsync
  have htake : w.take 10 = (frameBody (byteAt w 1) (fieldX w) (fieldY w) (fieldZ w) (fieldT w)).take 10 :=
    (congrArg (List.take 10) hbody).trans (List.take_left' rfl)
  rw [encodeFrame, ← checksum_congr htake, hsum, ← hbody]

/-! The row that a type id selects (30_encoding.md R98). -/

theorem wellFormed_frameUnknown_iff {id : Byte} {x y z t : I16} :
    WellFormed (.frameUnknown id x y z t) ↔ id ≠ 0x51 ∧ id ≠ 0x52 ∧ id ≠ 0x53 ∧ id ≠ 0x54 := by
  simp only [WellFormed, wellFormed, Bool.and_eq_true, bne_iff_ne, and_assoc]

theorem wellFormed_frameRow (id : Byte) (x y z t : I16) : WellFormed (frameRow id x y z t) := by
  unfold frameRow
  split_ifs with hacc hgyro hangle hmag
  case neg => exact wellFormed_frameUnknown_iff.2 ⟨hacc, hgyro, hangle, hmag⟩
  all_goals rfl

theorem encode_frameRow (id : Byte) (x y z t : I16) :
    encode (frameRow id x y z t) = .wire (encodeFrame id x y z t) := by
  unfold frameRow
  split_ifs with hacc hgyro hangle hmag
  · rw [hacc, encode]
  · rw [hgyro, encode]
  · rw [hangle, encode]
  · rw [hmag, encode]
  · rw [encode]

/-- The row stands for the Frame of the kind that CLASSIFY selects. -/
theorem frameOf_frameRow (id : Byte) (x y z t : I16) :
    frameOf (frameRow id x y z t) = some ⟨classify id, id, x, y, z, t⟩ := by
  unfold frameRow classify
  split_ifs with hacc hgyro hangle hmag
  · rw [hacc, frameOf]
  · rw [hgyro, frameOf]
  · rw [hangle, frameOf]
  · rw [hmag, frameOf]
  · rw [frameOf]

theorem frameRow_of_wellFormed {id : Byte} {x y z t : I16} (h : WellFormed (.frameUnknown id x y z t)) :
    frameRow id x y z t = .frameUnknown id x y z t := by
  obtain ⟨hacc, hgyro, hangle, hmag⟩ := wellFormed_frameUnknown_iff.1 h
  rw [frameRow, if_neg hacc, if_neg hgyro, if_neg hangle, if_neg hmag]

end

/-! The CFG_CMD rows by the command they stand for (30_encoding.md R114). -/

/-- The row of a configuration command. -/
def cfgInstr : CfgCmd → Instr
  | .protocolSelect => .cfgProtocolSelect
  | .enableStreaming => .cfgEnableStreaming
  | .disableAllChannels => .cfgDisableAllChannels
  | .enableAcceleration => .cfgEnableAcceleration
  | .enableGyroscope => .cfgEnableGyroscope
  | .enableAngle => .cfgEnableAngle
  | .setOutputRate => .cfgSetOutputRate

theorem encode_cfgInstr (c : CfgCmd) : encode (cfgInstr c) = .cfg (cfgWord c) := by
  cases c <;> rfl

/-- The seven literals differ, so each decodes to its own row. -/
theorem decodeCfg_cfgWord (c : CfgCmd) : decodeCfg (cfgWord c) = .ok (cfgInstr c) := by
  cases c <;> rfl

theorem decode_encode_cfgInstr (c : CfgCmd) : decode (encode (cfgInstr c)) = .ok (cfgInstr c) := by
  rw [encode_cfgInstr, decode, decodeCfg_cfgWord]

/-- The encoding of a wire row decodes to the row of its type id. -/
theorem decode_wire_encodeFrame (id : Byte) (x y z t : I16) :
    decode (.wire (encodeFrame id x y z t)) = .ok (frameRow id x y z t) :=
  decodeWire_encodeFrame id x y z t

/-- Settles O1: format by format. A wire row comes back as the row of its type id, which is itself where it is well
formed; a port operation by its op field; a command by its literal. -/
theorem encodeThenDecodeGivesTheInstrBack : Obligations.EncodeThenDecodeGivesTheInstrBack := by
  intro i hwf
  cases i with
  | frameAcc x y z t => exact decode_wire_encodeFrame 0x51 x y z t
  | frameGyro x y z t => exact decode_wire_encodeFrame 0x52 x y z t
  | frameAngle x y z t => exact decode_wire_encodeFrame 0x53 x y z t
  | frameMag x y z t => exact decode_wire_encodeFrame 0x54 x y z t
  | frameUnknown id x y z t => rw [encode, decode_wire_encodeFrame, frameRow_of_wellFormed hwf]
  | step => rw [encode, decode, decodePort_portWord_zero]
  | push b => rw [encode, decode, decodePort_portWord_one]
  | take => rw [encode, decode, decodePort_portWord_two]
  | reset => rw [encode, decode, decodePort_portWord_three]
  | cfgProtocolSelect => exact decode_encode_cfgInstr .protocolSelect
  | cfgEnableStreaming => exact decode_encode_cfgInstr .enableStreaming
  | cfgDisableAllChannels => exact decode_encode_cfgInstr .disableAllChannels
  | cfgEnableAcceleration => exact decode_encode_cfgInstr .enableAcceleration
  | cfgEnableGyroscope => exact decode_encode_cfgInstr .enableGyroscope
  | cfgEnableAngle => exact decode_encode_cfgInstr .enableAngle
  | cfgSetOutputRate => exact decode_encode_cfgInstr .setOutputRate

/-- Settles O2: an accepted word is ENCODE of its fields, which is how its row is encoded. -/
theorem wireDecodingLosesNoBit : Obligations.WireDecodingLosesNoBit := by
  intro w i hdecode
  obtain ⟨hlen, hsync, hsum, rfl⟩ := decodeWire_eq_ok_iff.1 hdecode
  exact ⟨wellFormed_frameRow _ _ _ _ _, by rw [encode_frameRow, encodeFrame_fields hlen hsync hsum]⟩

/-- Settles O4: the decoder on the seven literals, and their four bytes, by evaluation. -/
theorem configLiteralsDecodeAndSplit : Obligations.ConfigLiteralsDecodeAndSplit :=
  ⟨⟨decodeCfg_cfgWord .protocolSelect, by decide⟩, ⟨decodeCfg_cfgWord .enableStreaming, by decide⟩,
    ⟨decodeCfg_cfgWord .disableAllChannels, by decide⟩, ⟨decodeCfg_cfgWord .enableAcceleration, by decide⟩,
    ⟨decodeCfg_cfgWord .enableGyroscope, by decide⟩, ⟨decodeCfg_cfgWord .enableAngle, by decide⟩,
    ⟨decodeCfg_cfgWord .setOutputRate, by decide⟩⟩

/-- Settles O5: five wire words and four port words, by evaluation. -/
theorem wordsWrittenOutDecode : Obligations.WordsWrittenOutDecode :=
  ⟨rfl, rfl, rfl, rfl, rfl, rfl, rfl, rfl, rfl⟩

theorem le16_toNat (lo hi : Byte) : (le16 lo hi).toNat = hi.toNat * 256 + lo.toNat := by
  rw [le16, BitVec.toNat_append, ← Nat.shiftLeft_add_eq_or_of_lt lo.isLt, Nat.shiftLeft_eq]

/-- The value of a 16-bit word is `signed16` of its bits as a number. -/
theorem toInt_eq_signed16 (v : I16) : v.toInt = Machine.signed16 v.toNat := by
  rw [BitVec.toInt_eq_toNat_cond, Machine.signed16]
  split_ifs <;> omega

/-- Settles O8: LE16 as a number, read in two's complement. -/
theorem le16IsSignedLittleEndian : Obligations.Le16IsSignedLittleEndian := fun lo hi => by
  rw [toInt_eq_signed16, le16_toNat]

end Sys2Proof

namespace Sys2Proof.Machine

/-! The rows and DECODE (40_frame_decoder.md R136, R139 to R143; log 3). -/

theorem toOption_eq_some_iff {r : Except DecodeError Instr} {i : Instr} : r.toOption = some i ↔ r = .ok i := by
  cases r <;> simp [Except.toOption]

/-- Settles O15: both decoders accept the valid frames, and the row of a type id stands for the Frame of its kind. -/
theorem wireRowsStandForTheDecodedFrame : Obligations.WireRowsStandForTheDecodedFrame := by
  intro w
  ext g
  rw [Option.bind_eq_some_iff, decodeFrame_eq_some_iff]
  constructor
  · rintro ⟨hlen, hsync, hsum, rfl⟩
    exact ⟨_, toOption_eq_some_iff.2 (decodeWire_eq_ok_iff.2 ⟨hlen, hsync, hsum, rfl⟩), frameOf_frameRow _ _ _ _ _⟩
  · rintro ⟨i, hwire, hframe⟩
    obtain ⟨hlen, hsync, hsum, rfl⟩ := decodeWire_eq_ok_iff.1 (toOption_eq_some_iff.1 hwire)
    rw [frameOf_frameRow, Option.some.injEq] at hframe
    exact ⟨hlen, hsync, hsum, hframe.symm⟩

/-- The row read from a window stands for the Frame that DECODE reads there. -/
theorem exists_frameOf_of_decodeWire {w : List Byte} {i : Instr} (h : decodeWire w = .ok i) :
    ∃ g, decodeFrame w = some g ∧ frameOf i = some g := by
  obtain ⟨-, -, -, rfl⟩ := decodeWire_eq_ok_iff.1 h
  refine ⟨_, ?_, frameOf_frameRow _ _ _ _ _⟩
  rw [wireRowsStandForTheDecodedFrame w, h]
  exact frameOf_frameRow _ _ _ _ _

theorem emitFrame_of_out_eq_some {s : State} {f : Frame} (hout : s.out = some f) (g : Frame) :
    emitFrame g s = s.stepReturns .held := by
  obtain ⟨hnone, -⟩ | ⟨-, hheld⟩ := emitFrame_cases g s
  · simp [hout] at hnone
  · exact hheld

/-- A STEP that finds a valid frame at the front does what `emitFrame` does, whether OUT is full or empty. -/
theorem scanStep_eq_emitFrame {s : State} {g : Frame} (hdecode : decodeFrame (s.buf.take 11) = some g) :
    scanStep s = emitFrame g s := by
  cases hout : s.out with
  | none => rw [scanStep_of_decodeFrame hdecode hout, emitFrame_of_out_eq_none hout]
  | some f => rw [scanStep_of_held hdecode hout, emitFrame_of_out_eq_some hout]

/-- Settles O28: the row at the front stands for the frame that the STEP finds there. -/
theorem stepExecutesTheFrameAtTheFront : Obligations.StepExecutesTheFrameAtTheFront := by
  intro s i hwire
  obtain ⟨g, hdecode, hframe⟩ := exists_frameOf_of_decodeWire hwire
  rw [exec_step, scanStep_eq_emitFrame hdecode, exec_of_frameOf hframe]

theorem exec_of_frameOf_of_out_isSome {i : Instr} {g : Frame} (h : frameOf i = some g) {s : State}
    (hout : s.out.isSome = true) : exec i s = .next (s.stepReturns .held) := by
  obtain ⟨f, hfull⟩ := Option.isSome_iff_exists.1 hout
  rw [exec_of_frameOf h, emitFrame_of_out_eq_some hfull]

/-- Settles O27: each of the five rows stands for a Frame, which OUT has no room for. -/
theorem frameRowsAreHeldWhileOutIsFull : Obligations.FrameRowsAreHeldWhileOutIsFull := by
  intro x y z t id s hout
  simp only [List.forall_mem_cons, List.not_mem_nil, false_implies, implies_true, and_true]
  exact ⟨exec_of_frameOf_of_out_isSome rfl hout, exec_of_frameOf_of_out_isSome rfl hout,
    exec_of_frameOf_of_out_isSome rfl hout, exec_of_frameOf_of_out_isSome rfl hout,
    exec_of_frameOf_of_out_isSome rfl hout⟩

/-! UNPACK's refusals (30_encoding.md R105; log 19). -/

/-- Of the eight kind codes, three are the code of no variant, whatever the type id. -/
theorem kindOfCode_eq_none_iff (code : BitVec 3) (id : Byte) :
    kindOfCode code id = none ↔ code ∈ [(5 : BitVec 3), 6, 7] := by
  have hcode : code ∈ [(0 : BitVec 3), 1, 2, 3, 4, 5, 6, 7] := by revert code; decide
  simp only [List.mem_cons, List.not_mem_nil, or_false] at hcode
  obtain rfl | rfl | rfl | rfl | rfl | rfl | rfl | rfl := hcode <;> simp [kindOfCode]

/-- Settles O18: UNPACK refuses where no variant has the kind code, and PACK's kind bits are the code of a variant. -/
theorem unpackRefusesTheReservedKinds : Obligations.UnpackRefusesTheReservedKinds := by
  refine ⟨fun v => ?_, fun f => ?_⟩
  · rw [unpack, Option.map_eq_none_iff, kindOfCode_eq_none_iff]
  · rw [pack_kindBits]
    exact kindCode_not_reserved f.kind

end Sys2Proof.Machine

namespace Sys2Proof.Machine

/-! One step by its request (log 4). -/

theorem step_of_pending {s : State} {r : Request} {rest : List Request} (h : s.pending = r :: rest) :
    step s = perform r (s.withPending rest) := by
  simp [step, State.fetch, h]

theorem perform_cfg_of_ok {w : CfgWord} {i : Instr} (h : decodeCfg w = .ok i) (s : State) :
    perform (.cfg w) s = exec i s := by
  simp [perform, h]

theorem perform_cfg_of_error {w : CfgWord} {e : DecodeError} (h : decodeCfg w = .error e) (s : State) :
    perform (.cfg w) s = .refused (.unlistedCommand w) := by
  simp [perform, h]

/-- Settles O34: the request at the head is performed; a STEP of a window that decodes is the row it decodes to. -/
theorem stepRunsTheDecodedRequest : Obligations.StepRunsTheDecodedRequest := by
  refine fun s rest => ⟨fun w hp => step_of_pending hp, fun w i hp hop hwire => ?_, fun w i hp hcfg => ?_,
    fun w e hp hcfg => ?_, fun p hp => step_of_pending hp, fun hp => ?_⟩
  · have hport : step s = exec (decodePort w) (s.withPending rest) := step_of_pending hp
    rw [hport, hop]
    exact stepExecutesTheFrameAtTheFront (s.withPending rest) i hwire
  · exact (step_of_pending hp).trans (perform_cfg_of_ok hcfg _)
  · exact (step_of_pending hp).trans (perform_cfg_of_error hcfg _)
  · simp [step, State.fetch, hp]

/-- A clock edge uses up no request. -/
@[simp] theorem clockEdge_pending (p : Pins) (s : State) : (clockEdge p s).pending = s.pending := by
  obtain ⟨-, he⟩ | ⟨-, u, hu, hpush⟩ := clockEdge_cases p s
  · simp [he]
  · have hsame : u.pending = s.pending := by
      obtain rfl | ⟨-, -, rfl⟩ := hu <;> simp
    obtain ⟨-, he⟩ | ⟨-, he⟩ := hpush <;> simp [he, hsame]

/-- A port word always answers, and uses up no request. -/
theorem exists_exec_decodePort (w : PortWord) (s : State) :
    ∃ t, exec (decodePort w) s = .next t ∧ t.pending = s.pending := by
  obtain ⟨-, he⟩ | ⟨-, he⟩ | ⟨-, he⟩ | ⟨-, he⟩ := exec_decodePort w s
  · exact ⟨_, he, by simp⟩
  · exact ⟨_, he, by simp⟩
  · exact ⟨_, he, by simp⟩
  · exact ⟨_, he, by simp⟩

/-- Settles O38: each of the four operations answers, and so does the clocked mapping; neither touches what is still
presented. -/
theorem blockOperationsAlwaysGoOn : Obligations.BlockOperationsAlwaysGoOn := by
  refine fun s rest => ⟨fun w hp => ?_, fun p hp => ?_⟩
  · obtain ⟨t, hexec, hpending⟩ := exists_exec_decodePort w (s.withPending rest)
    exact ⟨t, (step_of_pending hp).trans hexec, hpending⟩
  · exact ⟨clockEdge p (s.withPending rest), step_of_pending hp, clockEdge_pending p _⟩

/-! What the work before a request's PUSH leaves of the block's fields. -/

theorem Work.cap {s u : State} (h : Work s u) : u.cap = s.cap := by
  cases h <;> simp

theorem scanStep_buf_cases (s : State) :
    ∃ k, (k = 0 ∨ k = 1 ∨ k = 11) ∧ (scanStep s).buf = s.buf.drop k := by
  obtain ⟨-, he⟩ | ⟨-, -, he⟩ | ⟨-, g, -, -, he⟩ | ⟨-, -, he⟩ := scanStep_cases s
  · exact ⟨0, by simp [he]⟩
  · exact ⟨0, by simp [he]⟩
  · exact ⟨11, by simp [he]⟩
  · exact ⟨1, by simp [he]⟩

/-- The work removes 0, 1 or 11 bytes from the front of BUF. -/
theorem Work.buf_cases {s u : State} (h : Work s u) :
    ∃ k, (k = 0 ∨ k = 1 ∨ k = 11) ∧ u.buf = s.buf.drop k := by
  cases h with
  | nothing => exact ⟨0, by simp⟩
  | take => exact ⟨0, by simp⟩
  | step => exact scanStep_buf_cases s
  | takeStep => simpa using scanStep_buf_cases (takeFrame s)
  | link l => exact ⟨0, by simp⟩

/-- A full OUT holds the STEP, or lets it drop a byte: its frame stays. -/
theorem scanStep_out_of_some {s : State} {f : Frame} (hout : s.out = some f) : (scanStep s).out = some f := by
  obtain ⟨-, he⟩ | ⟨-, -, he⟩ | ⟨-, _, -, hnone, -⟩ | ⟨-, -, he⟩ := scanStep_cases s
  · simp [he, hout]
  · simp [he, hout]
  · simp [hout] at hnone
  · simp [he, hout]

theorem takeFrame_taken_of_out_eq_some {s : State} {f : Frame} (hout : s.out = some f) :
    (takeFrame s).taken = s.taken ++ [f] := by
  simp [takeFrame_of_out_eq_some hout]

/-- The work leaves a frame in OUT, or moves it to the consumer's log. -/
theorem Work.of_out_eq_some {s u : State} (h : Work s u) {f : Frame} (hout : s.out = some f) :
    (u.out = some f ∧ u.taken = s.taken) ∨ u.taken = s.taken ++ [f] := by
  cases h with
  | nothing => exact .inl ⟨hout, rfl⟩
  | take => exact .inr (takeFrame_taken_of_out_eq_some hout)
  | step => exact .inl ⟨scanStep_out_of_some hout, by simp⟩
  | takeStep => exact .inr (by simp [takeFrame_taken_of_out_eq_some hout])
  | link l => exact .inl ⟨hout, rfl⟩

/-- With OUT empty the work logs nothing. -/
theorem Work.taken_of_out_eq_none {s u : State} (h : Work s u) (hout : s.out = none) : u.taken = s.taken := by
  cases h <;> simp [takeFrame_of_out_eq_none hout]

/-- The work touches the consumer's log only by the frame in OUT. -/
theorem Work.taken_cases {s u : State} (h : Work s u) :
    u.taken = s.taken ∨ ∃ f, s.out = some f ∧ u.taken = s.taken ++ [f] := by
  cases hout : s.out with
  | none => exact .inl (h.taken_of_out_eq_none hout)
  | some f =>
    obtain ⟨-, hlog⟩ | hlog := h.of_out_eq_some hout
    · exact .inl hlog
    · exact .inr ⟨f, rfl, hlog⟩

/-! What one step keeps, by the work of its request and the PUSH after it. -/

/-- A PUSH leaves OVF, or sets it in a block of finite capacity. -/
theorem pushByte_ovf_cases (b : Byte) (s : State) :
    (pushByte b s).ovf = s.ovf ∨ ((pushByte b s).ovf = true ∧ bufCapLimit s.cap ≠ none) := by
  obtain ⟨-, he⟩ | ⟨hfull, he⟩ := pushByte_cases b s
  · exact .inl (by simp [he])
  · obtain ⟨n, hcap, -⟩ := s.full_eq_true_iff.1 hfull
    exact .inr ⟨by simp [he], by simp [hcap]⟩

/-- A step leaves OVF, clears it by a reset, or sets it by a PUSH into a block of finite capacity. -/
theorem step_ovf_cases {s t : State} (h : step s = .next t) :
    t.ovf = s.ovf ∨ (t.ovf = false ∧ ∃ r rest, s.pending = r :: rest ∧ r.resets = true) ∨
      (t.ovf = true ∧ bufCapLimit s.cap ≠ none ∧ ∃ r rest b, s.pending = r :: rest ∧ r.pushed = [b]) := by
  obtain ⟨-, rfl⟩ | ⟨r, rest, hp, ⟨hreset, rfl⟩ | ⟨-, u, hwork, hpush⟩⟩ := step_cases_of_request h
  · exact .inl rfl
  · exact .inr (.inl ⟨resetBlock_ovf _, r, rest, hp, hreset⟩)
  · obtain ⟨hovf, -⟩ := hwork.frame
    obtain ⟨-, rfl⟩ | ⟨b, hb, rfl⟩ := hpush
    · exact .inl hovf
    · obtain hsame | ⟨hset, hcap⟩ := pushByte_ovf_cases b u
      · exact .inl (hsame.trans hovf)
      · exact .inr (.inr ⟨hset, by rwa [hwork.cap] at hcap, r, rest, b, hp, hb⟩)

/-- Settles O39: the three things a step can do to OVF. -/
theorem ovfIsSticky : Obligations.OvfIsSticky := by
  intro s t hstep
  obtain hsame | ⟨hclear, hreset⟩ | ⟨hset, hraise⟩ := step_ovf_cases hstep
  · rw [hsame]
    exact ⟨fun hset hclear => by simp [hset] at hclear, fun hclear hset => by simp [hclear] at hset⟩
  · exact ⟨fun _ _ => hreset, fun _ hset => by simp [hclear] at hset⟩
  · exact ⟨fun _ hclear => by simp [hset] at hclear, fun _ _ => hraise⟩

/-- Settles O40: a request that is no reset works at the front of BUF, and its PUSH at the back. -/
theorem bufChangesOnlyAtItsEnds : Obligations.BufChangesOnlyAtItsEnds := by
  intro s t r rest hp hstep
  obtain ⟨hwait, -⟩ | ⟨r', rest', hp', hcase⟩ := step_cases_of_request hstep
  · simp [hp] at hwait
  · obtain ⟨rfl, rfl⟩ := List.cons.inj (hp.symm.trans hp')
    obtain ⟨hreset, rfl⟩ | ⟨hreset, u, hwork, hpush⟩ := hcase
    · exact .inl ⟨hreset, resetBlock_buf _⟩
    · obtain ⟨k, hk, hbuf⟩ := hwork.buf_cases
      refine .inr ⟨hreset, k, ?_⟩
      obtain ⟨-, rfl⟩ | ⟨b, hb, rfl⟩ := hpush
      · exact ⟨[], hk, .inl rfl, by simpa using hbuf⟩
      · obtain hadd | hsame := pushByte_buf_cases b u
        · exact ⟨[b], hk, .inr hb.symm, by rw [hadd, hbuf, State.withPending_buf]⟩
        · exact ⟨[], hk, .inl rfl, by simpa [hsame] using hbuf⟩

/-- The PUSH of a request, if it makes one, leaves OUT and the consumer's log. -/
theorem out_taken_of_push {r : Request} {u t : State}
    (h : (r.pushed = [] ∧ t = u) ∨ ∃ b, r.pushed = [b] ∧ t = pushByte b u) : t.out = u.out ∧ t.taken = u.taken := by
  obtain ⟨-, rfl⟩ | ⟨b, -, rfl⟩ := h <;> simp

/-- Settles O41: the work of a request leaves the frame in OUT or takes it, and only a reset discards it. -/
theorem outIsNeverOverwritten : Obligations.OutIsNeverOverwritten := by
  intro s t f hout hstep
  obtain ⟨-, rfl⟩ | ⟨r, rest, hp, ⟨hreset, rfl⟩ | ⟨-, u, hwork, hpush⟩⟩ := step_cases_of_request hstep
  · exact .inl ⟨hout, rfl⟩
  · exact .inr (.inr ⟨resetBlock_out _, r, rest, hp, hreset⟩)
  · obtain ⟨hsame, htaken⟩ := out_taken_of_push hpush
    obtain ⟨hkeep, hlog⟩ | hlog := hwork.of_out_eq_some (f := f) hout
    · exact .inl ⟨hsame.trans hkeep, htaken.trans hlog⟩
    · exact .inr (.inl (htaken.trans hlog))

/-- Settles O43: only the work of a request writes the consumer's log. -/
theorem takenOnlyGrowsByTheFrameInOut : Obligations.TakenOnlyGrowsByTheFrameInOut := by
  intro s t hstep
  obtain ⟨-, rfl⟩ | ⟨r, rest, -, ⟨-, rfl⟩ | ⟨-, u, hwork, hpush⟩⟩ := step_cases_of_request hstep
  · exact .inl rfl
  · exact .inl rfl
  · rw [(out_taken_of_push hpush).2]
    exact hwork.taken_cases

end Sys2Proof.Machine

namespace Sys2Proof.Safety

open Sys2Proof.Machine

/-! The invariant, operation by operation (10_state.md R34, R37, R38). -/

/-- The invariant of a state passes to one of the same capacity that buffers no more, has raised no OVF and holds
coherent frames. -/
theorem BlockInv.mono {s t : State} (h : BlockInv s) (hcap : t.cap = s.cap) (hlen : t.buf.length ≤ s.buf.length)
    (hovf : t.ovf = true → s.ovf = true) (hframes : Safety.framesCoherent t = true) : BlockInv t where
  withinCap := (withinCap_iff t).2 fun n hn => hlen.trans ((withinCap_iff s).1 h.withinCap n (hcap ▸ hn))
  ovfNeedsCap := (ovfNeedsCap_iff t).2 fun hn => by
    have hclear := (ovfNeedsCap_iff s).1 h.ovfNeedsCap (hcap ▸ hn)
    exact Bool.eq_false_iff.2 fun hset => by simp [hovf hset] at hclear
  framesCoherent := hframes

theorem BlockInv.resetWith (cap : Config.BufCap) : BlockInv (State.resetWith cap) where
  withinCap := (withinCap_iff _).2 fun n _ => Nat.zero_le n
  ovfNeedsCap := (ovfNeedsCap_iff _).2 fun _ => rfl
  framesCoherent := rfl

theorem BlockInv.withPending {s : State} (h : BlockInv s) (rs : List Request) : BlockInv (s.withPending rs) :=
  h.mono rfl le_rfl id h.framesCoherent

theorem BlockInv.withLink {s : State} (h : BlockInv s) (l : Link) : BlockInv (s.withLink l) :=
  h.mono rfl le_rfl id h.framesCoherent

theorem BlockInv.resetBlock {s : State} (h : BlockInv s) : BlockInv (resetBlock s) := by
  obtain ⟨-, htaken⟩ := (framesCoherent_iff s).1 h.framesCoherent
  exact h.mono rfl (Nat.zero_le _) (fun hset => by simp at hset)
    ((framesCoherent_iff _).2 ⟨fun f hout => by simp at hout, htaken⟩)

/-- A TAKE moves a coherent frame. -/
theorem framesCoherent_takeFrame {s : State} (h : framesCoherent s = true) :
    framesCoherent (takeFrame s) = true := by
  obtain ⟨hout, htaken⟩ := (framesCoherent_iff s).1 h
  refine (framesCoherent_iff _).2 ⟨fun f hf => by simp at hf, fun f hf => ?_⟩
  obtain ⟨g, hg, he⟩ | ⟨-, he⟩ := takeFrame_cases s
  · rw [he] at hf
    obtain hold | hlast := List.mem_append.1 hf
    · exact htaken f hold
    · exact hout f (by rw [hg, List.mem_singleton.1 hlast])
  · exact htaken f (by simpa [he] using hf)

/-- What a STEP loads, DECODE has accepted. -/
theorem framesCoherent_scanStep {s : State} (h : framesCoherent s = true) : framesCoherent (scanStep s) = true := by
  obtain ⟨hout, htaken⟩ := (framesCoherent_iff s).1 h
  refine (framesCoherent_iff _).2 ⟨fun f hf => ?_, by simpa using htaken⟩
  obtain hold | ⟨hdecode, -⟩ := scanStep_out_cases hf
  · exact hout f hold
  · exact coherent_of_decodeFrame hdecode

theorem BlockInv.takeFrame {s : State} (h : BlockInv s) : BlockInv (takeFrame s) :=
  h.mono (by simp) (by simp) (by simp) (framesCoherent_takeFrame h.framesCoherent)

theorem BlockInv.scanStep {s : State} (h : BlockInv s) : BlockInv (scanStep s) := by
  obtain ⟨k, -, hbuf⟩ := scanStep_buf_cases s
  exact h.mono (by simp) (by simp [hbuf]) (by simp) (framesCoherent_scanStep h.framesCoherent)

/-- A PUSH appends only below the capacity, and raises OVF only where there is one. -/
theorem BlockInv.pushByte {s : State} (h : BlockInv s) (b : Byte) : BlockInv (pushByte b s) := by
  obtain ⟨hroom, he⟩ | ⟨hfull, he⟩ := pushByte_cases b s <;> rw [he]
  · refine ⟨(withinCap_iff _).2 fun n hn => ?_, h.ovfNeedsCap, h.framesCoherent⟩
    have hlt := s.full_eq_false_iff.1 hroom n hn
    simpa using hlt
  · obtain ⟨n, hcap, -⟩ := s.full_eq_true_iff.1 hfull
    exact ⟨h.withinCap, (ovfNeedsCap_iff _).2 fun hnone => by simp [hcap] at hnone, h.framesCoherent⟩

/-- The work of a request keeps the invariant. -/
theorem BlockInv.work {s u : State} (h : BlockInv s) (hwork : Work s u) : BlockInv u := by
  cases hwork with
  | nothing => exact h
  | take => exact h.takeFrame
  | step => exact h.scanStep
  | takeStep => exact h.takeFrame.scanStep
  | link l => exact h.withLink l

/-- Settles O35: the wait, the reset, the work of a request and its PUSH each keep the invariant. -/
theorem everyStepKeepsTheInvariant : Obligations.EveryStepKeepsTheInvariant := by
  intro s t h hstep
  obtain ⟨-, rfl⟩ | ⟨r, rest, -, ⟨-, rfl⟩ | ⟨-, u, hwork, hpush⟩⟩ := step_cases_of_request hstep
  · exact h
  · exact (h.withPending rest).resetBlock
  · have hu : BlockInv u := (h.withPending rest).work hwork
    obtain ⟨-, rfl⟩ | ⟨b, -, rfl⟩ := hpush
    · exact hu
    · exact hu.pushByte b

/-- Settles O36: an empty block, whatever its capacity. -/
theorem resetStateHasTheInvariant : Obligations.ResetStateHasTheInvariant :=
  ⟨BlockInv.resetWith .unbounded, BlockInv.resetWith⟩

end Sys2Proof.Safety

namespace Sys2Proof.Machine

/-! The configuration commands as their rows run them (45_boundary_software.md R213, R214; log 9). -/

/-- A command runs on the host's side of the link. -/
theorem exec_cfgInstr (c : CfgCmd) (s : State) :
    exec (cfgInstr c) s = .next (s.withLink (sendCfg c s.link)) := by
  cases c <;> rfl

/-- The rows of the seven commands, in the order of the handshake, with their bytes. -/
theorem handshakeCommands_map_cfgInstr :
    handshakeCommands.map (fun c => (cfgInstr c, cfgBytes (cfgWord c))) =
      [(.cfgProtocolSelect, [0xFF, 0xAA, 0x03, 0x00]), (.cfgEnableStreaming, [0xFF, 0xAA, 0x27, 0x00]),
        (.cfgDisableAllChannels, [0xFF, 0xAA, 0x02, 0x00]), (.cfgEnableAcceleration, [0xFF, 0xAA, 0x02, 0x01]),
        (.cfgEnableGyroscope, [0xFF, 0xAA, 0x02, 0x04]), (.cfgEnableAngle, [0xFF, 0xAA, 0x02, 0x08]),
        (.cfgSetOutputRate, [0xFF, 0xAA, 0x03, 0x08])] := by
  decide

/-- The calls of a command that succeeds. -/
def commandCalls (bytes : List Byte) : List LinkCall := [.write bytes true, .flush true, .delay 100]

theorem sendCfg_of_error {l : Link} {e : TransportError} (h : l.error = some e) (c : CfgCmd) : sendCfg c l = l := by
  simp [sendCfg, Link.andThen, h]

theorem sendCfg_of_write_fails {l : Link} (herr : l.error = none) (hwrite : l.answer = false) (c : CfgCmd) :
    sendCfg c l = { l with
      calls := l.calls ++ [.write (cfgBytes (cfgWord c)) false], answers := l.answers.tail,
      error := some .writeFailed } := by
  simp [sendCfg, Link.andThen, herr, Link.write, hwrite]

theorem sendCfg_of_flush_fails {l : Link} (herr : l.error = none) (hwrite : l.answer = true)
    (hflush : l.answers.tail.headD true = false) (c : CfgCmd) : sendCfg c l = { l with
      calls := l.calls ++ [.write (cfgBytes (cfgWord c)) true, .flush false], answers := l.answers.drop 2,
      error := some .flushFailed } := by
  have hafter : (l.write (cfgBytes (cfgWord c))).answer = false := hflush
  simp [sendCfg, Link.andThen, herr, Link.flush, hwrite, hafter, ← List.drop_one]

theorem sendCfg_of_succeeds {l : Link} (herr : l.error = none) (hwrite : l.answer = true)
    (hflush : l.answers.tail.headD true = true) (c : CfgCmd) : sendCfg c l = { l with
      calls := l.calls ++ commandCalls (cfgBytes (cfgWord c)), answers := l.answers.drop 2 } := by
  have hafter : (l.write (cfgBytes (cfgWord c))).answer = true := hflush
  simp [sendCfg, Link.andThen, herr, Link.flush, Link.delay, hwrite, hafter, commandCalls, Config.commandDelayMs,
    ← List.drop_one]

/-- Settles O29: command by command, where both calls succeed. -/
theorem configCommandsWriteFlushAndWait : Obligations.ConfigCommandsWriteFlushAndWait := by
  intro s herr hwrite hflush
  rw [← handshakeCommands_map_cfgInstr, List.forall_mem_map]
  intro c _
  rw [exec_cfgInstr, sendCfg_of_succeeds herr hwrite hflush]
  rfl

/-- Settles O30: command by command, for each way a sequence ends. -/
theorem configFailureEndsTheSequence : Obligations.ConfigFailureEndsTheSequence := by
  intro s
  rw [← handshakeCommands_map_cfgInstr, List.forall_mem_map]
  refine fun c _ => ⟨fun e herr => ?_, fun herr hwrite => ?_, fun herr hwrite hflush => ?_⟩
  · rw [exec_cfgInstr, sendCfg_of_error herr]
    rfl
  · rw [exec_cfgInstr, sendCfg_of_write_fails herr hwrite]
    rfl
  · rw [exec_cfgInstr, sendCfg_of_flush_fails herr hwrite hflush]
    rfl

/-! Sequences of commands. -/

theorem sendAll_cons (c : CfgCmd) (cs : List CfgCmd) (l : Link) :
    sendAll (c :: cs) l = sendAll cs (sendCfg c l) := rfl

theorem sendAll_append (cs ds : List CfgCmd) (l : Link) : sendAll (cs ++ ds) l = sendAll ds (sendAll cs l) :=
  List.foldl_append

/-- A command undoes no call. -/
theorem calls_prefix_sendCfg (c : CfgCmd) (l : Link) : l.calls <+: (sendCfg c l).calls := by
  obtain ⟨-, he⟩ | ⟨-, -, he⟩ | ⟨-, -, -, he⟩ | ⟨-, -, -, he⟩ := sendCfg_cases c l <;> simp [he]

theorem calls_prefix_sendAll (cs : List CfgCmd) (l : Link) : l.calls <+: (sendAll cs l).calls := by
  induction cs generalizing l with
  | nil => exact List.prefix_rfl
  | cons c cs ih => exact (calls_prefix_sendCfg c l).trans (ih (sendCfg c l))

/-- A sequence that has ended sends nothing. -/
theorem sendAll_of_error {l : Link} {e : TransportError} (h : l.error = some e) (cs : List CfgCmd) :
    sendAll cs l = l := by
  induction cs with
  | nil => rfl
  | cons c cs ih => rw [sendAll_cons, sendCfg_of_error h, ih]

/-- Settles O32: commands that follow only add calls, and after an error they add none. -/
theorem sentCommandsAreNotUndone : Obligations.SentCommandsAreNotUndone := by
  refine fun cs l => ⟨calls_prefix_sendAll cs l, fun hended => ?_, fun ds => ?_⟩
  · obtain ⟨e, herr⟩ := Option.isSome_iff_exists.1 hended
    exact sendAll_of_error herr cs
  · rw [sendAll_append]
    exact calls_prefix_sendAll ds _

/-- Settles O33: the one listed command that the word stands for writes the link and nothing else. -/
theorem configCommandsDoNotTouchTheBlock : Obligations.ConfigCommandsDoNotTouchTheBlock := by
  intro s t w rest hp hstep
  obtain ⟨hwait, -⟩ | ⟨_, _, hport, -⟩ | ⟨_, _, hedge, -⟩ | ⟨c, rest', hcfg, rfl⟩ := step_cases hstep
  · simp [hp] at hwait
  · simp [hp] at hport
  · simp [hp] at hedge
  · obtain ⟨-, rfl⟩ := List.cons.inj (hp.symm.trans hcfg)
    exact ⟨rfl, calls_prefix_sendCfg c s.link⟩

/-- No call has failed, and no call with an answer listed will. -/
def Link.NeverFails (l : Link) : Prop := l.error = none ∧ ∀ a ∈ l.answers, a = true

/-- On a link on which nothing fails, a command makes its three calls, and nothing fails after it. -/
theorem sendCfg_of_neverFails {l : Link} (h : l.NeverFails) (c : CfgCmd) :
    (sendCfg c l).NeverFails ∧ (sendCfg c l).calls = l.calls ++ commandCalls (cfgBytes (cfgWord c)) := by
  obtain ⟨herr, hanswers⟩ := h
  have hhead {answers : List Bool} (hall : ∀ a ∈ answers, a = true) : answers.headD true = true := by
    cases answers with
    | nil => rfl
    | cons a rest => exact hall a List.mem_cons_self
  have hflush := hhead fun a ha => hanswers a (List.mem_of_mem_tail ha)
  rw [sendCfg_of_succeeds herr (hhead hanswers) hflush]
  exact ⟨⟨herr, fun a ha => hanswers a (List.mem_of_mem_drop ha)⟩, rfl⟩

theorem sendAll_of_neverFails {l : Link} (h : l.NeverFails) (cs : List CfgCmd) :
    (sendAll cs l).NeverFails ∧
      (sendAll cs l).calls = l.calls ++ (cs.map fun c => cfgBytes (cfgWord c)).flatMap commandCalls := by
  induction cs generalizing l with
  | nil => exact ⟨h, (List.append_nil _).symm⟩
  | cons c cs ih =>
    obtain ⟨hnow, hcalls⟩ := sendCfg_of_neverFails h c
    obtain ⟨hlater, hrest⟩ := ih hnow
    exact ⟨hlater, by rw [sendAll_cons, hrest, hcalls, List.map_cons, List.flatMap_cons, List.append_assoc]⟩

/-- The seven literals byte by byte, in the order of the handshake (30_encoding.md R114). -/
theorem handshakeCommands_map_cfgBytes :
    handshakeCommands.map (fun c => cfgBytes (cfgWord c)) =
      [[0xFF, 0xAA, 0x03, 0x00], [0xFF, 0xAA, 0x27, 0x00], [0xFF, 0xAA, 0x02, 0x00], [0xFF, 0xAA, 0x02, 0x01],
        [0xFF, 0xAA, 0x02, 0x04], [0xFF, 0xAA, 0x02, 0x08], [0xFF, 0xAA, 0x03, 0x08]] := by
  decide

/-- What the calls of successful commands put on the wire: their bytes. -/
theorem wireBytes_commandCalls (bytes : List Byte) : (commandCalls bytes).flatMap LinkCall.wireBytes = bytes := by
  simp [commandCalls, LinkCall.wireBytes]

/-- Settles O31: each command of the handshake makes its three calls, and only the writes reach the wire. -/
theorem handshakeSendsTheSevenLiteralsInOrder : Obligations.HandshakeSendsTheSevenLiteralsInOrder := by
  intro l herr hanswers
  obtain ⟨⟨hend, -⟩, hcalls⟩ := sendAll_of_neverFails ⟨herr, hanswers⟩ handshakeCommands
  have hwire : (runHandshake l).wireBytes =
      l.wireBytes ++ (handshakeCommands.map fun c => cfgBytes (cfgWord c)).flatten := by
    rw [Link.wireBytes, runHandshake, hcalls, List.flatMap_append, List.flatMap_assoc]
    simp only [wireBytes_commandCalls, List.flatMap_id', Link.wireBytes]
  rw [handshakeCommands_map_cfgBytes] at hcalls hwire
  exact ⟨hend, hcalls, hwire⟩

/-! The Scaler (45_boundary_software.md R219, R220). -/

theorem scaleFrame_of_fullScale {f : Frame} {scale : Rat} {unit : PhysicalUnit}
    (h : fullScale f.kind = some (scale, unit)) :
    scaleFrame f = .physical (scaleAxis scale f.x) (scaleAxis scale f.y) (scaleAxis scale f.z) unit := by
  simp [scaleFrame, h]

theorem scaleFrame_of_no_fullScale {f : Frame} (h : fullScale f.kind = none) : scaleFrame f = .unchanged f := by
  simp [scaleFrame, h]

/-- Settles O58: by the full scale of each kind. -/
theorem scalerFollowsItsFormula : Obligations.ScalerFollowsItsFormula := fun _ =>
  ⟨fun hkind => scaleFrame_of_fullScale (congrArg fullScale hkind),
    fun hkind => scaleFrame_of_fullScale (congrArg fullScale hkind),
    fun hkind => scaleFrame_of_fullScale (congrArg fullScale hkind),
    fun hkind => scaleFrame_of_no_fullScale (congrArg fullScale hkind),
    fun _ hkind => scaleFrame_of_no_fullScale (congrArg fullScale hkind), rfl⟩

end Sys2Proof.Machine

namespace Sys2Proof.Machine

/-! The Baud Detector (45_boundary_software.md R216, R217), candidate by candidate. -/

section

variable (p : Config.HostParams) (path : String)

/-- The state in which the next candidate is tried, once the candidate `baud` tried in `s` is rejected. -/
def afterRejection (s : State) (baud : Nat) : State := (probe p path baud s).2.dropChannel

/-- The state in which candidate `k` is tried, once those before it are rejected. -/
def stateBefore (cs : List Nat) (s : State) (k : Nat) : State := (cs.take k).foldl (afterRejection p path) s

/-- Candidate `k`, if there is one, is rejected once those before it are. -/
def RejectsAt (cs : List Nat) (s : State) (k : Nat) : Prop :=
  ∀ b, cs[k]? = some b → (probe p path b (stateBefore p path cs s k)).1 = .rejected

/-- Candidate `k` is the first one that is not rejected, and it is accepted. -/
def AcceptsAt (cs : List Nat) (s : State) (baud : Nat) (t : State) (k : Nat) : Prop :=
  cs[k]? = some baud ∧ (∀ j < k, RejectsAt p path cs s j) ∧
    probe p path baud (stateBefore p path cs s k) = (.accepted, t)

end

section

variable {p : Config.HostParams} {path : String} {b : Nat} {cs : List Nat} {s : State}

theorem rejectsAt_nil (k : Nat) : RejectsAt p path [] s k := fun _ hb => by simp at hb

theorem rejectsAt_cons_zero : RejectsAt p path (b :: cs) s 0 ↔ (probe p path b s).1 = .rejected := by
  simp [RejectsAt, stateBefore]

theorem rejectsAt_cons_succ {k : Nat} :
    RejectsAt p path (b :: cs) s (k + 1) ↔ RejectsAt p path cs (afterRejection p path s b) k := Iff.rfl

theorem not_acceptsAt_nil {baud k : Nat} {t : State} : ¬ AcceptsAt p path [] s baud t k := by
  simp [AcceptsAt]

theorem acceptsAt_cons_zero {baud : Nat} {t : State} :
    AcceptsAt p path (b :: cs) s baud t 0 ↔ b = baud ∧ probe p path baud s = (.accepted, t) := by
  simp [AcceptsAt, stateBefore]

theorem acceptsAt_cons_succ {baud k : Nat} {t : State} :
    AcceptsAt p path (b :: cs) s baud t (k + 1) ↔
      (probe p path b s).1 = .rejected ∧ AcceptsAt p path cs (afterRejection p path s b) baud t k := by
  unfold AcceptsAt
  rw [Nat.forall_lt_succ_left, rejectsAt_cons_zero]
  simp only [rejectsAt_cons_succ]
  exact ⟨fun ⟨hk, ⟨hb, hj⟩, ht⟩ => ⟨hb, hk, hj, ht⟩, fun ⟨hb, hk, hj, ht⟩ => ⟨hk, ⟨hb, hj⟩, ht⟩⟩

/-- A detection ends with its first candidate, accepted or failed, or goes on after its rejection. -/
theorem detectFrom_cons_cases (p : Config.HostParams) (path : String) (b : Nat) (cs : List Nat) (s : State) :
    (∃ t, probe p path b s = (.accepted, t) ∧ detectFrom p path (b :: cs) s = (.found b, t)) ∨
    ((probe p path b s).1 = .rejected ∧
      detectFrom p path (b :: cs) s = detectFrom p path cs (afterRejection p path s b)) ∨
    (∃ e t, probe p path b s = (.failed e, t) ∧ detectFrom p path (b :: cs) s = (.transport e, t)) := by
  unfold afterRejection
  rcases hprobe : probe p path b s with ⟨_ | _ | e, t⟩
  · exact .inl ⟨t, rfl, by simp [detectFrom, hprobe]⟩
  · exact .inr (.inl ⟨rfl, by simp [detectFrom, hprobe]⟩)
  · exact .inr (.inr ⟨e, t, rfl, by simp [detectFrom, hprobe]⟩)

/-- A rate is found exactly at the first candidate that is not rejected, if that one is accepted. -/
theorem detectFrom_eq_found_iff (cs : List Nat) (s : State) (baud : Nat) (t : State) :
    detectFrom p path cs s = (.found baud, t) ↔ ∃ k, AcceptsAt p path cs s baud t k := by
  induction cs generalizing s with
  | nil => simp [detectFrom, not_acceptsAt_nil]
  | cons b cs ih =>
    rw [← Nat.or_exists_add_one, acceptsAt_cons_zero]
    simp only [acceptsAt_cons_succ]
    obtain ⟨u, hprobe, he⟩ | ⟨hrejected, he⟩ | ⟨e, u, hprobe, he⟩ := detectFrom_cons_cases p path b cs s
    · rw [he, hprobe]
      constructor
      · intro hfound
        cases hfound
        exact .inl ⟨rfl, hprobe⟩
      · rintro (⟨rfl, haccept⟩ | ⟨k, hrejected, -⟩)
        · cases hprobe.symm.trans haccept
          rfl
        · cases hrejected
    · rw [he, ih]
      constructor
      · rintro ⟨k, hk⟩
        exact .inr ⟨k, hrejected, hk⟩
      · rintro (⟨rfl, haccept⟩ | ⟨k, -, hk⟩)
        · simp [haccept] at hrejected
        · exact ⟨k, hk⟩
    · rw [he, hprobe]
      constructor
      · intro hfound
        cases hfound
      · rintro (⟨rfl, haccept⟩ | ⟨k, hrejected, -⟩)
        · cases hprobe.symm.trans haccept
        · cases hrejected

/-- A detection is exhausted exactly when no candidate is left unrejected. -/
theorem detectFrom_exhausted_iff (cs : List Nat) (s : State) :
    (detectFrom p path cs s).1 = .exhausted ↔ ∀ k, RejectsAt p path cs s k := by
  induction cs generalizing s with
  | nil => simp [detectFrom, rejectsAt_nil]
  | cons b cs ih =>
    rw [← Nat.and_forall_add_one, rejectsAt_cons_zero]
    simp only [rejectsAt_cons_succ]
    obtain ⟨u, hprobe, he⟩ | ⟨hrejected, he⟩ | ⟨e, u, hprobe, he⟩ := detectFrom_cons_cases p path b cs s
    · simp [he, hprobe]
    · simp [he, hrejected, ih]
    · simp [he, hprobe]

/-- The channel of a rate found is open at that rate. -/
theorem channel_of_detectFrom {baud : Nat} {t : State} (h : detectFrom p path cs s = (.found baud, t)) :
    t.link.channel = some ⟨path, baud, p.probeTimeoutMs⟩ := by
  obtain ⟨_, -, -, haccept⟩ := (detectFrom_eq_found_iff cs s baud t).1 h
  exact probe_accepted_channel haccept

end

/-! One probe (45_boundary_software.md R216, R217). -/

/-- The bytes that a read returns: those of the answer, up to the size asked for, or none. -/
theorem readAnswer_bytes_of_data {l : Link} {bytes : List Byte} (h : l.reads.headD .timeout = .data bytes)
    (maxLen : Nat) : (l.readAnswer maxLen).bytes = bytes.take maxLen := by
  rw [Link.readAnswer, h, ReadAnswer.upTo, ReadAnswer.bytes]

theorem readAnswer_bytes_of_no_data {l : Link} (h : ∀ bytes, l.reads.headD .timeout ≠ .data bytes)
    (maxLen : Nat) : (l.readAnswer maxLen).bytes = [] := by
  rw [Link.readAnswer]
  cases hread : l.reads.headD .timeout with
  | timeout => rfl
  | data bytes => exact absurd hread (h bytes)
  | ioError => rfl

/-- No acceptance test accepts a read of no bytes. -/
theorem acceptsProbe_nil (a : Config.BaudAccept) : acceptsProbe a [] = false := by
  cases a <;> rfl

/-- The probe's test is passed exactly by a read that returns bytes which BAUD_ACCEPT accepts. -/
theorem acceptsProbe_readAnswer_iff (p : Config.HostParams) (l : Link) :
    acceptsProbe p.baudAccept (l.readAnswer p.probeReadLen).bytes = true ↔
      ∃ bytes, l.reads.headD .timeout = .data bytes ∧
        (p.baudAccept = .nonEmptyRead → bytes.take p.probeReadLen ≠ []) ∧
        (p.baudAccept = .syncPresent → (0x55 : Byte) ∈ bytes.take p.probeReadLen) := by
  by_cases hdata : ∃ bytes, l.reads.headD .timeout = .data bytes
  · obtain ⟨bytes, hread⟩ := hdata
    rw [readAnswer_bytes_of_data hread, acceptsProbe_iff]
    constructor
    · exact fun hpass => ⟨bytes, hread, hpass⟩
    · rintro ⟨bytes', hread', hpass⟩
      cases hread.symm.trans hread'
      exact hpass
  · rw [readAnswer_bytes_of_no_data (not_exists.1 hdata), acceptsProbe_nil]
    exact iff_of_false Bool.false_ne_true fun ⟨bytes, hread, _⟩ => hdata ⟨bytes, hread⟩

theorem probe_of_open_fails {p : Config.HostParams} {path : String} {baud : Nat} {s : State} {e : OpenError}
    (h : s.link.openAnswer = .failed e) : (probe p path baud s).1 = .rejected := by
  obtain ⟨-, he⟩ | ⟨hopened, -⟩ := probe_cases p path baud s
  · rw [he]
  · simp [h] at hopened

/-- A candidate that opens and takes the probe commands stands or falls with the acceptance test of its read. -/
theorem probe_of_commands_sent {p : Config.HostParams} {path : String} {baud : Nat} {s : State}
    (hopen : s.link.openAnswer = .opened)
    (hsent : (sendAll p.probeCmds (s.link.openAt path baud p.probeTimeoutMs)).error = none) :
    (probe p path baud s).1 =
      if acceptsProbe p.baudAccept (s.link.readAnswer p.probeReadLen).bytes then .accepted else .rejected := by
  obtain ⟨⟨e, hfailed⟩, -⟩ | ⟨-, ⟨e, herr, -⟩ | ⟨-, he⟩⟩ := probe_cases p path baud s
  · simp [hopen] at hfailed
  · simp [hsent] at herr
  · obtain ⟨-, hreads, -⟩ := sendAll_frame p.probeCmds (s.link.openAt path baud p.probeTimeoutMs)
    have hread : (sendAll p.probeCmds (s.link.openAt path baud p.probeTimeoutMs)).readAnswer p.probeReadLen =
        s.link.readAnswer p.probeReadLen := by
      rw [Link.readAnswer, hreads, Link.openAt_reads, Link.readAnswer]
    simp [he, probeRead, hread]

/-- Settles O59: the detection by its candidates, and one candidate by its probe. -/
theorem detectReturnsTheFirstAcceptedRate : Obligations.DetectReturnsTheFirstAcceptedRate := by
  refine fun p path => ⟨fun cs s => ⟨detectFrom_eq_found_iff cs s, fun baud t => channel_of_detectFrom,
    detectFrom_exhausted_iff cs s⟩, fun baud s e => probe_of_open_fails, fun baud s hopen hsent => ?_⟩
  have hprobe := probe_of_commands_sent hopen hsent
  refine ⟨fun hpass => ?_, fun hfail => ?_⟩
  · rw [hprobe, if_pos ((acceptsProbe_readAnswer_iff p s.link).2 hpass)]
  · rw [hprobe, if_neg (mt (acceptsProbe_readAnswer_iff p s.link).1 hfail)]

/-! The Device-Responding Check (45_boundary_software.md R218), read by read. -/

/-- The read returned the sync byte. -/
def ReadAnswer.HasSync (a : ReadAnswer) : Prop := ∃ bytes, a = .data bytes ∧ (0x55 : Byte) ∈ bytes

/-- The read was a timeout or data without the sync byte: the check may read again. -/
def ReadAnswer.Retried (a : ReadAnswer) : Prop :=
  a = .timeout ∨ ∃ bytes, a = .data bytes ∧ (0x55 : Byte) ∉ bytes

/-- A read ends the check with success, lets it go on, or ends it without success. -/
theorem verifyFrom_succ_cases (maxLen n : Nat) (s : State) :
    ((s.link.readAnswer maxLen).HasSync ∧ verifyFrom maxLen (n + 1) s = (true, (receive maxLen s).2)) ∨
    ((s.link.readAnswer maxLen).Retried ∧ verifyFrom maxLen (n + 1) s = verifyFrom maxLen n (receive maxLen s).2) ∨
    (s.link.readAnswer maxLen = .ioError ∧ verifyFrom maxLen (n + 1) s = (false, (receive maxLen s).2)) := by
  have hanswer : (receive maxLen s).1 = s.link.readAnswer maxLen := rfl
  rw [← hanswer, verifyFrom]
  rcases receive maxLen s with ⟨_ | bytes | _, t⟩
  · exact .inr (.inl ⟨.inl rfl, rfl⟩)
  · by_cases hsync : (0x55 : Byte) ∈ bytes
    · exact .inl ⟨⟨bytes, rfl, hsync⟩, if_pos (List.contains_iff_mem.2 hsync)⟩
    · exact .inr (.inl ⟨.inr ⟨bytes, rfl, hsync⟩, if_neg (mt List.contains_iff_mem.1 hsync)⟩)
  · exact .inr (.inr ⟨rfl, rfl⟩)

/-- What the link's reads return, next first. -/
def Link.returns (maxLen : Nat) (l : Link) : List ReadAnswer := l.reads.map (ReadAnswer.upTo maxLen)

/-- One of the first `n` of these reads returned the sync byte, and every read before it lets the check go on. -/
def SyncWithin (n : Nat) (reads : List ReadAnswer) : Prop :=
  ∃ k < n, (∃ bytes, reads[k]? = some (.data bytes) ∧ (0x55 : Byte) ∈ bytes) ∧
    ∀ j < k, reads[j]? = some .timeout ∨ ∃ bytes, reads[j]? = some (.data bytes) ∧ (0x55 : Byte) ∉ bytes

theorem not_syncWithin_zero (reads : List ReadAnswer) : ¬ SyncWithin 0 reads := fun ⟨_, hk, _⟩ => Nat.not_lt_zero _ hk

theorem not_syncWithin_nil (n : Nat) : ¬ SyncWithin n [] := by
  simp [SyncWithin]

/-- The first read returned the sync byte, or lets the check go on and the others hold it. -/
theorem syncWithin_cons_iff {n : Nat} {a : ReadAnswer} {reads : List ReadAnswer} :
    SyncWithin (n + 1) (a :: reads) ↔ a.HasSync ∨ (a.Retried ∧ SyncWithin n reads) := by
  unfold SyncWithin
  rw [← Nat.or_exists_add_one]
  simp only [Nat.forall_lt_succ_left, List.getElem?_cons_zero, List.getElem?_cons_succ, Option.some.injEq,
    Nat.add_lt_add_iff_right]
  constructor
  · rintro (⟨-, hsync, -⟩ | ⟨k, hk, hsync, hretried, hbefore⟩)
    · exact .inl hsync
    · exact .inr ⟨hretried, k, hk, hsync, hbefore⟩
  · rintro (hsync | ⟨hretried, k, hk, hsync, hbefore⟩)
    · exact .inl ⟨Nat.succ_pos n, hsync, fun _ hj => absurd hj (Nat.not_lt_zero _)⟩
    · exact .inr ⟨k, hk, hsync, hretried, hbefore⟩

/-- A read uses up the first answer. -/
theorem returns_receive (maxLen : Nat) (s : State) :
    (receive maxLen s).2.link.returns maxLen = (s.link.returns maxLen).tail := by
  simp [Link.returns]

theorem readAnswer_eq_getD (maxLen : Nat) (l : Link) : l.readAnswer maxLen = (l.returns maxLen).getD 0 .timeout := by
  rw [Link.readAnswer, Link.returns]
  cases l.reads <;> rfl

/-- The kinds of read exclude each other. -/
theorem ReadAnswer.not_retried_of_hasSync {a : ReadAnswer} (h : a.HasSync) : ¬ a.Retried := by
  obtain ⟨bytes, rfl, hsync⟩ := h
  rintro (htimeout | ⟨_, hdata, hno⟩)
  · cases htimeout
  · cases hdata
    exact hno hsync

theorem ReadAnswer.not_hasSync_ioError : ¬ ReadAnswer.ioError.HasSync := fun ⟨_, hdata, _⟩ => by cases hdata

theorem ReadAnswer.not_retried_ioError : ¬ ReadAnswer.ioError.Retried := by
  rintro (htimeout | ⟨_, hdata, -⟩)
  · cases htimeout
  · cases hdata

/-- Where no answer is left the reads time out, so the sync byte is in none of them. -/
theorem verifyFrom_fst_of_no_answers {maxLen : Nat} (n : Nat) {s : State} (h : s.link.returns maxLen = []) :
    (verifyFrom maxLen n s).1 = false := by
  induction n generalizing s with
  | zero => rfl
  | succ n ih =>
    have htimeout : s.link.readAnswer maxLen = .timeout := by rw [readAnswer_eq_getD, h, List.getD_nil]
    obtain ⟨⟨_, hdata, -⟩, -⟩ | ⟨-, he⟩ | ⟨herr, -⟩ := verifyFrom_succ_cases maxLen n s
    · cases htimeout.symm.trans hdata
    · rw [he]
      exact ih (by rw [returns_receive, h, List.tail_nil])
    · cases htimeout.symm.trans herr

/-- The check succeeds exactly when the sync byte is within its reads. -/
theorem verifyFrom_fst_iff (maxLen n : Nat) (s : State) :
    (verifyFrom maxLen n s).1 = true ↔ SyncWithin n (s.link.returns maxLen) := by
  induction n generalizing s with
  | zero => simp [verifyFrom, not_syncWithin_zero]
  | succ n ih =>
    cases hreads : s.link.returns maxLen with
    | nil => simp [verifyFrom_fst_of_no_answers _ hreads, not_syncWithin_nil]
    | cons a reads =>
      have hrest : (receive maxLen s).2.link.returns maxLen = reads := by rw [returns_receive, hreads, List.tail_cons]
      obtain rfl : s.link.readAnswer maxLen = a := by rw [readAnswer_eq_getD, hreads, List.getD_cons_zero]
      rw [syncWithin_cons_iff]
      obtain ⟨hsync, he⟩ | ⟨hretried, he⟩ | ⟨herr, he⟩ := verifyFrom_succ_cases maxLen n s
      · simp [he, hsync]
      · have hno := mt ReadAnswer.not_retried_of_hasSync (not_not_intro hretried)
        rw [he, ih, hrest]
        simp [hretried, hno]
      · simp [he, herr, ReadAnswer.not_hasSync_ioError, ReadAnswer.not_retried_ioError]

/-- The calls of the first `made` reads, given what they return. -/
def readCalls (maxLen made : Nat) (reads : List ReadAnswer) : List LinkCall :=
  (List.range made).map fun j => .read maxLen (reads.getD j .timeout)

theorem getD_tail (reads : List ReadAnswer) (j : Nat) :
    reads.tail.getD j .timeout = reads.getD (j + 1) .timeout := by
  rw [List.getD_eq_getElem?_getD, List.getElem?_tail, List.getD_eq_getElem?_getD]

theorem readCalls_succ (maxLen made : Nat) (reads : List ReadAnswer) :
    readCalls maxLen (made + 1) reads = .read maxLen (reads.getD 0 .timeout) :: readCalls maxLen made reads.tail := by
  simp only [readCalls, List.range_succ_eq_map, List.map_cons, List.map_map, Function.comp_def, getD_tail]

theorem calls_receive (maxLen : Nat) (s : State) :
    (receive maxLen s).2.link.calls = s.link.calls ++ readCalls maxLen 1 (s.link.returns maxLen) := by
  rw [receive_link, Link.read_calls, readAnswer_eq_getD]
  rfl

/-- The check makes at most the reads it has left, at least one if it has any, and another one only after a read that
lets it go on. -/
theorem verifyFrom_calls (maxLen n : Nat) (s : State) :
    ∃ made ≤ n, (0 < n → 0 < made) ∧
      (verifyFrom maxLen n s).2.link.calls = s.link.calls ++ readCalls maxLen made (s.link.returns maxLen) ∧
      ∀ j, j + 1 < made → ((s.link.returns maxLen).getD j .timeout).Retried := by
  induction n generalizing s with
  | zero => exact ⟨0, le_rfl, id, by simp [verifyFrom, readCalls], fun j hj => absurd hj (Nat.not_lt_zero _)⟩
  | succ n ih =>
    have hstops {ok : Bool} (he : verifyFrom maxLen (n + 1) s = (ok, (receive maxLen s).2)) :
        (verifyFrom maxLen (n + 1) s).2.link.calls = s.link.calls ++ readCalls maxLen 1 (s.link.returns maxLen) := by
      rw [he, calls_receive]
    obtain ⟨-, he⟩ | ⟨hretried, he⟩ | ⟨-, he⟩ := verifyFrom_succ_cases maxLen n s
    · exact ⟨1, Nat.le_add_left 1 n, fun _ => Nat.one_pos, hstops he, fun j hj => by omega⟩
    · obtain ⟨made, hmade, -, hcalls, hgo⟩ := ih (receive maxLen s).2
      rw [returns_receive] at hcalls hgo
      refine ⟨made + 1, Nat.succ_le_succ hmade, fun _ => Nat.succ_pos made, ?_, fun j hj => ?_⟩
      · rw [he, hcalls, calls_receive, List.append_assoc, readCalls_succ maxLen made]
        rfl
      · cases j with
        | zero => rwa [← readAnswer_eq_getD]
        | succ j =>
          rw [← getD_tail]
          exact hgo j (Nat.lt_of_succ_lt_succ hj)
    · exact ⟨1, Nat.le_add_left 1 n, fun _ => Nat.one_pos, hstops he, fun j hj => by omega⟩

/-- Settles O60: the success of the check by what its reads return, and its calls. -/
theorem verifyLooksAtThreeReads : Obligations.VerifyLooksAtThreeReads := by
  intro maxLen s
  obtain ⟨made, hmost, hleast, hcalls, hgo⟩ := verifyFrom_calls maxLen 3 s
  exact ⟨verifyFrom_fst_iff maxLen 3 s, made, hleast (Nat.succ_pos 2), hmost, hcalls, hgo⟩

end Sys2Proof.Machine
